-- ==== Sys2Proof/Word.lean ====
section
/-! DEFINITION. The word types of EVMFS-core (spec 00_scope.md R9, R11): bytes of 8 bits and Words of 256 bits, bit 0 the
least significant, with two's-complement as the signed reading. Arithmetic on them stands in Machine/Alu.lean. -/

namespace Sys2Proof

/-- One byte, of code or of data memory (R42, R45). -/
abbrev Byte := BitVec 8

/-- A Word: an element of 0 .. 2^256 - 1 (R11). -/
abbrev Word := BitVec 256

/-- MAX of R11: the Word of all ones, -1 as a signed value. -/
def Word.maxValue : Word := BitVec.ofNat 256 (2 ^ 256 - 1)

/-- MIN_NEG of R11: the Word whose signed value is -2^255. -/
def Word.minNeg : Word := BitVec.ofNat 256 (2 ^ 255)

end Sys2Proof
end

