-- ==== Sys2Proof/Config.lean ====
section
/-! DEFINITION. What an implementation of EVMFS-core fixes (the OPEN parameters of spec 00_scope.md R7) and the free value
of the host's input gas_in (10_state.md R46). None of the constants has a body: no proof can see a value of them. -/

namespace Sys2Proof

/-- SAR_MODE of R7 and D10: which of the two arithmetic right shifts the block has. -/
inductive SarMode where
  /-- TRUE_ASR: copies of bit 255 enter at the top (42_bitops.md R173). -/
  | trueAsr
  /-- REFERENCE_FLIP: the source's flip, shift, flip algorithm (R173, R175). -/
  | referenceFlip
  deriving DecidableEq, Repr, Inhabited

/-- The OPEN parameters of R7, passed to the machine as one record. -/
structure Params where
  /-- MEM_LIMIT: how many bytes data memory can hold; none is unbounded (D19). -/
  memLimit : Option Nat
  /-- CODE_MAX: the longest bytecode a start may bring (D27). -/
  codeMax : Nat
  /-- SAR_MODE (D10). -/
  sarMode : SarMode
  deriving DecidableEq, Repr

/-- The ranges R7 gives: MEM_LIMIT is unbounded or at least 32, and CODE_MAX is below 2^256. -/
abbrev Params.Valid (p : Params) : Prop :=
  (∀ l ∈ p.memLimit, 32 ≤ l) ∧ p.codeMax < 2 ^ 256

/-- By how much MEM_LIMIT exceeds 32, or none for unbounded: OPEN (R7, D19). -/
opaque Config.memAbove32 : Option Nat

/-- CODE_MAX as a number below 2^256: OPEN (R7, D27). -/
opaque Config.codeMax : BitVec 256

/-- SAR_MODE: OPEN (R7, D10). -/
opaque Config.sarMode : SarMode

/-- The parameters of the machine at hand: unknown, but within the ranges of R7. -/
def Config.params : Params where
  memLimit := Config.memAbove32.map (32 + ·)
  codeMax := Config.codeMax.toNat
  sarMode := Config.sarMode

/-- gas_in at the n-th read of it: a free 256-bit draw, no law relating two reads (10_state.md R46, D15, I5). -/
opaque Config.gasIn : Nat → Word

end Sys2Proof
end

