-- ==== Sys2Proof/Machine/Flags.lean ====
section
/-! DEFINITION. What stands for flags. The block has no flag register and no condition code (10_state.md R47): a comparison
pushes a Word, and the sign of a Word is its bit 255. Here are that truth Word and the two word utilities of 00_scope.md R15. -/

namespace Sys2Proof.Machine

/-- `bool(c)` of R12: the Word 1 for true, 0 for false (D3). -/
def boolWord (c : Bool) : Word := if c then 1 else 0

/-- `is_negative` of R15: bit 255 is set. -/
def isNegative (v : Word) : Bool := v.getLsbD 255

/-- `flip_sign` of R15: bitwise NOT plus one, wrapping; MIN_NEG flips to itself. -/
def flipSign (v : Word) : Word := ~~~v + 1

end Sys2Proof.Machine
end

