-- ==== Sys2Proof/Machine/Alu.lean ====
section
/-! DEFINITION. The combinational 256-bit ALU (spec 40_arithmetic.md R131): one total function of Words per opcode of
0x01..0x0a and 0x10..0x1d, and the unit itself, which selects among them by the opcode. -/

namespace Sys2Proof.Machine

/-- ADD: `w(a + b)` (R121). -/
def aluAdd (a b : Word) : Word := a + b

/-- MUL: `w(a * b)` (R122). -/
def aluMul (a b : Word) : Word := a * b

/-- SUB: `w(a - b)`, the top the minuend (R123). -/
def aluSub (a b : Word) : Word := a - b

/-- DIV: 0 for a zero divisor, else `a div b` (R124). -/
def aluDiv (a b : Word) : Word :=
  if b = 0 then 0 else BitVec.ofNat 256 (a.toNat / b.toNat)

/-- SDIV: the three cases of R125; `tdiv` truncates toward zero. -/
def aluSdiv (a b : Word) : Word :=
  if b = 0 then 0
  else if a = Word.minNeg ∧ b = Word.maxValue then Word.minNeg
  else BitVec.ofInt 256 (a.toInt.tdiv b.toInt)

/-- MOD: 0 for a zero modulus, else `a mod b` (R126). -/
def aluMod (a b : Word) : Word :=
  if b = 0 then 0 else BitVec.ofNat 256 (a.toNat % b.toNat)

/-- SMOD: the magnitude `|s(a)| mod |s(b)|` with the sign of the dividend (R127). -/
def aluSmod (a b : Word) : Word :=
  if b = 0 then 0
  else
    let m := a.toInt.natAbs % b.toInt.natAbs
    if a.toInt < 0 then BitVec.ofInt 256 (-(m : Int)) else BitVec.ofNat 256 m

/-- ADDMOD: the exact sum reduced, 0 for a zero modulus (R128). -/
def aluAddmod (a b c : Word) : Word :=
  if c = 0 then 0 else BitVec.ofNat 256 ((a.toNat + b.toNat) % c.toNat)

/-- MULMOD: the exact product reduced, 0 for a zero modulus (R129). -/
def aluMulmod (a b c : Word) : Word :=
  if c = 0 then 0 else BitVec.ofNat 256 ((a.toNat * b.toNat) % c.toNat)

/-- Square and multiply over the `k` low bits of the exponent `e`: `acc * base ^ e` modulo 2^256. -/
def aluPower : (k : Nat) → (base : Word) → (e : Nat) → (acc : Word) → Word
  | 0, _, _, acc => acc
  | k + 1, base, e, acc => aluPower k (base * base) (e / 2) (if e % 2 = 1 then acc * base else acc)

/-- EXP: `w(a ^ b)` with `a ^ 0 = 1` (R130), by square and multiply over the 256 bits of b so that it can be run. -/
def aluExp (a b : Word) : Word := aluPower 256 a b.toNat 1

/-- LT: unsigned less-than (R151). -/
def aluLt (a b : Word) : Word := boolWord (decide (a.toNat < b.toNat))

/-- GT: unsigned greater-than (R152). -/
def aluGt (a b : Word) : Word := boolWord (decide (a.toNat > b.toNat))

/-- SLT: the source's algorithm as R153 gives it: signs first, magnitudes only where both are negative (C6). -/
def aluSlt (a b : Word) : Word :=
  let sa := isNegative a
  let sb := isNegative b
  boolWord
    (if sa != sb then sa
     else if sa = false then decide (a.toNat < b.toNat)
     else decide ((flipSign a).toNat > (flipSign b).toNat))

/-- SGT: SLT with its operands exchanged (R154). -/
def aluSgt (a b : Word) : Word := aluSlt b a

/-- EQ: equality over all 256 bits (R155). -/
def aluEq (a b : Word) : Word := boolWord (decide (a = b))

/-- ISZERO (R156). -/
def aluIszero (a : Word) : Word := boolWord (decide (a = 0))

/-- AND (R157). -/
def aluAnd (a b : Word) : Word := a &&& b

/-- OR (R158). -/
def aluOr (a b : Word) : Word := a ||| b

/-- XOR (R159). -/
def aluXor (a b : Word) : Word := a ^^^ b

/-- NOT: `~a` (R160). -/
def aluNot (a : Word) : Word := ~~~a

/-- SHL: 0 for a shift of 256 or more, else `w(x * 2^sh)` (R171). -/
def aluShl (sh x : Word) : Word := if 256 ≤ sh.toNat then 0 else x <<< sh.toNat

/-- SHR: `x >> sh`, 0 for a shift of 256 or more (R172). -/
def aluShr (sh x : Word) : Word := if 256 ≤ sh.toNat then 0 else x >>> sh.toNat

/-- SAR in the mode TRUE_ASR: `w(floor(s(x) / 2^k))`, which is all copies of bit 255 for k of 256 or more (R173). -/
def aluSarTrue (sh x : Word) : Word :=
  if 256 ≤ sh.toNat then (if isNegative x then Word.maxValue else 0)
  else BitVec.ofInt 256 (x.toInt / 2 ^ sh.toNat)

/-- SAR in the mode REFERENCE_FLIP: flip, shift, flip for a negative value (R173, R175). -/
def aluSarFlip (sh x : Word) : Word :=
  if isNegative x then flipSign (aluShr sh (flipSign x)) else aluShr sh x

/-- SAR under the parameter SAR_MODE (R173). -/
def aluSar (mode : SarMode) (sh x : Word) : Word :=
  match mode with
  | .trueAsr => aluSarTrue sh x
  | .referenceFlip => aluSarFlip sh x

/-- The offset of BYTE is out of range: 32 or more (R174). -/
def byteOutOfRange (i : Word) : Bool := decide (32 ≤ i.toNat)

/-- BYTE: byte i of x, byte 0 the most significant; 0 for an offset of 32 or more (R174). -/
def aluByte (i x : Word) : Word :=
  if byteOutOfRange i then 0
  else (x.extractLsb' (248 - 8 * i.toNat) 8).setWidth 256

/-- The ALU as a unit (R131): inputs the opcode, the three operand ports and SAR_MODE, output the result, defined for the
opcodes 0x01..0x0a and 0x10..0x1d. Ports an opcode does not use are ignored. -/
def alu (mode : SarMode) (op : Byte) (a b c : Word) : Option Word :=
  match op.toNat with
  | 0x01 => some (aluAdd a b)
  | 0x02 => some (aluMul a b)
  | 0x03 => some (aluSub a b)
  | 0x04 => some (aluDiv a b)
  | 0x05 => some (aluSdiv a b)
  | 0x06 => some (aluMod a b)
  | 0x07 => some (aluSmod a b)
  | 0x08 => some (aluAddmod a b c)
  | 0x09 => some (aluMulmod a b c)
  | 0x0a => some (aluExp a b)
  | 0x10 => some (aluLt a b)
  | 0x11 => some (aluGt a b)
  | 0x12 => some (aluSlt a b)
  | 0x13 => some (aluSgt a b)
  | 0x14 => some (aluEq a b)
  | 0x15 => some (aluIszero a)
  | 0x16 => some (aluAnd a b)
  | 0x17 => some (aluOr a b)
  | 0x18 => some (aluXor a b)
  | 0x19 => some (aluNot a)
  | 0x1a => some (aluByte a b)
  | 0x1b => some (aluShl a b)
  | 0x1c => some (aluShr a b)
  | 0x1d => some (aluSar mode a b)
  | _ => none

end Sys2Proof.Machine
end

