-- ==== Sys2Proof/Syntax.lean ====
section
/-! DEFINITION. The instruction set: one constructor per row of spec/opcode_table.json (99 rows, 00_scope.md R2,
30_encoding.md R92). A PUSHn carries the immediate bytes that follow its opcode, the first one first (format P, R90). -/

namespace Sys2Proof

/-- The instructions of EVMFS-core, in the order of the opcode map R92. -/
inductive Instr where
  /-- STOP, 0x00: End the run with success (R221). -/
  | stop
  /-- ADD, 0x01: Wrapping addition (R121). -/
  | add
  /-- MUL, 0x02: Wrapping multiplication (R122). -/
  | mul
  /-- SUB, 0x03: Wrapping subtraction, top minus second (R123). -/
  | sub
  /-- DIV, 0x04: Unsigned division (R124). -/
  | div
  /-- SDIV, 0x05: Signed division, toward zero (R125). -/
  | sdiv
  /-- MOD, 0x06: Unsigned remainder (R126). -/
  | mod
  /-- SMOD, 0x07: Signed remainder, sign of the dividend (R127). -/
  | smod
  /-- ADDMOD, 0x08: Modular addition, exact intermediate (R128). -/
  | addmod
  /-- MULMOD, 0x09: Modular multiplication, exact intermediate (R129). -/
  | mulmod
  /-- EXP, 0x0a: Power modulo 2^256 (R130). -/
  | exp
  /-- LT, 0x10: Unsigned less-than (R151). -/
  | lt
  /-- GT, 0x11: Unsigned greater-than (R152). -/
  | gt
  /-- SLT, 0x12: Signed less-than (R153). -/
  | slt
  /-- SGT, 0x13: Signed greater-than (R154). -/
  | sgt
  /-- EQ, 0x14: Equality (R155). -/
  | eq
  /-- ISZERO, 0x15: Test for zero (R156). -/
  | iszero
  /-- AND, 0x16: Bitwise and (R157). -/
  | and
  /-- OR, 0x17: Bitwise inclusive or (R158). -/
  | or
  /-- XOR, 0x18: Bitwise exclusive or (R159). -/
  | xor
  /-- NOT, 0x19: Bitwise complement (R160). -/
  | not
  /-- BYTE, 0x1a: Extract one byte, byte 0 the most significant (R174). -/
  | byte
  /-- SHL, 0x1b: Logical shift left (R171). -/
  | shl
  /-- SHR, 0x1c: Logical shift right (R172). -/
  | shr
  /-- SAR, 0x1d: Arithmetic shift right (R173). -/
  | sar
  /-- POP, 0x50: Discard the top word (R200). -/
  | pop
  /-- MLOAD, 0x51: Load one Word (R191). -/
  | mload
  /-- MSTORE, 0x52: Store one Word (R192). -/
  | mstore
  /-- MSTORE8, 0x53: Store one byte (R193). -/
  | mstore8
  /-- JUMP, 0x56: Jump to a validated JUMPDEST (R201). -/
  | jump
  /-- JUMPI, 0x57: Conditional jump (R202). -/
  | jumpi
  /-- PC, 0x58: Push the address of this instruction (R203). -/
  | pc
  /-- GAS, 0x5a: Push the host input gas_in (R222). -/
  | gas
  /-- JUMPDEST, 0x5b: Jump-target marker, a no-op (R204). -/
  | jumpdest
  /-- PUSH1, 0x60: push an immediate of 1 byte (R231). -/
  | push1 (imm : List Byte)
  /-- PUSH2, 0x61: push an immediate of 2 bytes (R232). -/
  | push2 (imm : List Byte)
  /-- PUSH3, 0x62: push an immediate of 3 bytes (R233). -/
  | push3 (imm : List Byte)
  /-- PUSH4, 0x63: push an immediate of 4 bytes (R234). -/
  | push4 (imm : List Byte)
  /-- PUSH5, 0x64: push an immediate of 5 bytes (R235). -/
  | push5 (imm : List Byte)
  /-- PUSH6, 0x65: push an immediate of 6 bytes (R236). -/
  | push6 (imm : List Byte)
  /-- PUSH7, 0x66: push an immediate of 7 bytes (R237). -/
  | push7 (imm : List Byte)
  /-- PUSH8, 0x67: push an immediate of 8 bytes (R238). -/
  | push8 (imm : List Byte)
  /-- PUSH9, 0x68: push an immediate of 9 bytes (R239). -/
  | push9 (imm : List Byte)
  /-- PUSH10, 0x69: push an immediate of 10 bytes (R240). -/
  | push10 (imm : List Byte)
  /-- PUSH11, 0x6a: push an immediate of 11 bytes (R241). -/
  | push11 (imm : List Byte)
  /-- PUSH12, 0x6b: push an immediate of 12 bytes (R242). -/
  | push12 (imm : List Byte)
  /-- PUSH13, 0x6c: push an immediate of 13 bytes (R243). -/
  | push13 (imm : List Byte)
  /-- PUSH14, 0x6d: push an immediate of 14 bytes (R244). -/
  | push14 (imm : List Byte)
  /-- PUSH15, 0x6e: push an immediate of 15 bytes (R245). -/
  | push15 (imm : List Byte)
  /-- PUSH16, 0x6f: push an immediate of 16 bytes (R246). -/
  | push16 (imm : List Byte)
  /-- PUSH17, 0x70: push an immediate of 17 bytes (R247). -/
  | push17 (imm : List Byte)
  /-- PUSH18, 0x71: push an immediate of 18 bytes (R248). -/
  | push18 (imm : List Byte)
  /-- PUSH19, 0x72: push an immediate of 19 bytes (R249). -/
  | push19 (imm : List Byte)
  /-- PUSH20, 0x73: push an immediate of 20 bytes (R250). -/
  | push20 (imm : List Byte)
  /-- PUSH21, 0x74: push an immediate of 21 bytes (R251). -/
  | push21 (imm : List Byte)
  /-- PUSH22, 0x75: push an immediate of 22 bytes (R252). -/
  | push22 (imm : List Byte)
  /-- PUSH23, 0x76: push an immediate of 23 bytes (R253). -/
  | push23 (imm : List Byte)
  /-- PUSH24, 0x77: push an immediate of 24 bytes (R254). -/
  | push24 (imm : List Byte)
  /-- PUSH25, 0x78: push an immediate of 25 bytes (R255). -/
  | push25 (imm : List Byte)
  /-- PUSH26, 0x79: push an immediate of 26 bytes (R256). -/
  | push26 (imm : List Byte)
  /-- PUSH27, 0x7a: push an immediate of 27 bytes (R257). -/
  | push27 (imm : List Byte)
  /-- PUSH28, 0x7b: push an immediate of 28 bytes (R258). -/
  | push28 (imm : List Byte)
  /-- PUSH29, 0x7c: push an immediate of 29 bytes (R259). -/
  | push29 (imm : List Byte)
  /-- PUSH30, 0x7d: push an immediate of 30 bytes (R260). -/
  | push30 (imm : List Byte)
  /-- PUSH31, 0x7e: push an immediate of 31 bytes (R261). -/
  | push31 (imm : List Byte)
  /-- PUSH32, 0x7f: push an immediate of 32 bytes (R262). -/
  | push32 (imm : List Byte)
  /-- DUP1, 0x80: copy S[0] onto the top (R264). -/
  | dup1
  /-- DUP2, 0x81: copy S[1] onto the top (R265). -/
  | dup2
  /-- DUP3, 0x82: copy S[2] onto the top (R266). -/
  | dup3
  /-- DUP4, 0x83: copy S[3] onto the top (R267). -/
  | dup4
  /-- DUP5, 0x84: copy S[4] onto the top (R268). -/
  | dup5
  /-- DUP6, 0x85: copy S[5] onto the top (R269). -/
  | dup6
  /-- DUP7, 0x86: copy S[6] onto the top (R270). -/
  | dup7
  /-- DUP8, 0x87: copy S[7] onto the top (R271). -/
  | dup8
  /-- DUP9, 0x88: copy S[8] onto the top (R272). -/
  | dup9
  /-- DUP10, 0x89: copy S[9] onto the top (R273). -/
  | dup10
  /-- DUP11, 0x8a: copy S[10] onto the top (R274). -/
  | dup11
  /-- DUP12, 0x8b: copy S[11] onto the top (R275). -/
  | dup12
  /-- DUP13, 0x8c: copy S[12] onto the top (R276). -/
  | dup13
  /-- DUP14, 0x8d: copy S[13] onto the top (R277). -/
  | dup14
  /-- DUP15, 0x8e: copy S[14] onto the top (R278). -/
  | dup15
  /-- DUP16, 0x8f: copy S[15] onto the top (R279). -/
  | dup16
  /-- SWAP1, 0x90: exchange S[0] and S[1] (R281). -/
  | swap1
  /-- SWAP2, 0x91: exchange S[0] and S[2] (R282). -/
  | swap2
  /-- SWAP3, 0x92: exchange S[0] and S[3] (R283). -/
  | swap3
  /-- SWAP4, 0x93: exchange S[0] and S[4] (R284). -/
  | swap4
  /-- SWAP5, 0x94: exchange S[0] and S[5] (R285). -/
  | swap5
  /-- SWAP6, 0x95: exchange S[0] and S[6] (R286). -/
  | swap6
  /-- SWAP7, 0x96: exchange S[0] and S[7] (R287). -/
  | swap7
  /-- SWAP8, 0x97: exchange S[0] and S[8] (R288). -/
  | swap8
  /-- SWAP9, 0x98: exchange S[0] and S[9] (R289). -/
  | swap9
  /-- SWAP10, 0x99: exchange S[0] and S[10] (R290). -/
  | swap10
  /-- SWAP11, 0x9a: exchange S[0] and S[11] (R291). -/
  | swap11
  /-- SWAP12, 0x9b: exchange S[0] and S[12] (R292). -/
  | swap12
  /-- SWAP13, 0x9c: exchange S[0] and S[13] (R293). -/
  | swap13
  /-- SWAP14, 0x9d: exchange S[0] and S[14] (R294). -/
  | swap14
  /-- SWAP15, 0x9e: exchange S[0] and S[15] (R295). -/
  | swap15
  /-- SWAP16, 0x9f: exchange S[0] and S[16] (R296). -/
  | swap16
  /-- INVALID, 0xfe: End the run with the bytecode's declared failure (R223). -/
  | invalid
  deriving DecidableEq, Repr

end Sys2Proof
end

