-- ==== Sys2Proof/Machine/State.lean ====
section
/-! DEFINITION. Block: the state of EVMFS-core as plain data, exactly the tuple of spec 10_state.md R30, which is all that is
stepped. Inputs: what R50 keeps out of it and passes to every step as arguments. State: the block with what stands around it
(log 1), the closed system that the host's step moves. Also the reasons a step can stop, and the power-on state (R360). -/

namespace Sys2Proof.Machine

/-- The kinds of fatal outcome (60_exceptions.md R321). -/
inductive FatalKind where
  /-- Fewer words on the stack than the instruction consumes. -/
  | stackUnderflow
  /-- A push onto 1024 words. -/
  | stackOverflow
  /-- The fetched byte is not in the opcode map. -/
  | unknownOpcode
  /-- A PUSHn with fewer than n bytes left. -/
  | malformedPush
  /-- An access that passes MEM_LIMIT. -/
  | memoryLimit
  deriving DecidableEq, Repr

/-- The run status (R40). -/
inductive Phase where
  /-- No run in progress, none ended since power-on. -/
  | idle
  /-- A run is in progress. -/
  | running
  /-- A run ended with this exit code: 0 success, any other failure. -/
  | exited (code : Nat)
  /-- A run ended with a fatal outcome of this kind. -/
  | fatal (kind : FatalKind)
  deriving DecidableEq, Repr

/-- The outcome class RES holds (R41, R320). -/
inductive OutcomeClass where
  | success
  | failure
  | fatal
  deriving DecidableEq, Repr

/-- The result latch RES (R41), read by the host, never by the program. -/
structure Result where
  /-- A result is present. -/
  valid : Bool
  /-- The outcome class. -/
  outcome : OutcomeClass
  /-- The outcome is SUCCESS. -/
  success : Bool
  /-- The exit code for SUCCESS and FAILURE, 0 for FATAL. -/
  code : Nat
  /-- The kind for FATAL, none otherwise. -/
  kind : Option FatalKind
  /-- The offset of the faulting instruction for FATAL, 0 otherwise. -/
  faultPc : Nat
  /-- The number of words in `stack`. -/
  depth : Nat
  /-- The final stack, top first. -/
  stack : List Word
  deriving DecidableEq, Repr

/-- The severities of the diagnostic port (60_exceptions.md R330); no rule emits `info`. -/
inductive Severity where
  | info
  | warning
  | error
  deriving DecidableEq, Repr

/-- What a diagnostic event reports (R330). -/
inductive DiagKind where
  /-- BYTE with an offset of 32 or more. -/
  | byteOffsetOutOfRange
  /-- A run ended with a nonzero exit code. -/
  | nonzeroExit
  /-- A run ended with a fatal outcome. -/
  | fatal
  deriving DecidableEq, Repr

/-- One diagnostic event `(sev, what, ipc)` (R330). -/
structure DiagEvent where
  severity : Severity
  what : DiagKind
  ipc : Nat
  deriving DecidableEq, Repr

/-- The block's architectural state: the tuple `(phase, pc, S, M, msize, JD, RES)` of R30, and nothing else. -/
structure Block where
  /-- The run status (R40). -/
  phase : Phase
  /-- The program counter: the index of the next byte to fetch (R36). -/
  pc : Nat
  /-- The operand stack, top first: S[i] is element i (R13, R31). -/
  stack : List Word
  /-- The data memory: the bytes that are not 0, addresses strictly rising (R42, R65). -/
  mem : List Host.Cell
  /-- The touched extent of data memory, in bytes (R43). -/
  msize : Nat
  /-- The jump-destination set, strictly rising (R44). -/
  jd : List Nat
  /-- The result latch (R41). -/
  res : Result
  deriving DecidableEq, Repr

/-- The arguments of the step relation that are not state (R50). The last one R50 lists, the opcode table, is the fixed
function `decode`. -/
structure Inputs where
  /-- The OPEN parameters of R7. -/
  params : Params
  /-- The bytecode `code[0..L-1]`; L is its length (R45). -/
  code : List Byte
  /-- The gas input (R46). -/
  gasIn : Word
  deriving DecidableEq, Repr

/-- What the block answers to its inputs in one step: its next state and its outputs. -/
structure Reaction where
  block : Block
  /-- The event the diagnostic port emits; no step emits two (R330). -/
  event : Option DiagEvent
  /-- The step has sampled gas_in (R46, R362). -/
  readsGas : Bool
  deriving DecidableEq, Repr

/-- What stands around the block: the source of its inputs and the record of its outputs. No part of the block's state (R50),
and nothing the block can write (log 1). -/
structure Surroundings where
  /-- The OPEN parameters of R7: fixed for the machine, no step changes them (R50, log 2). -/
  params : Params
  /-- The code store `code[0..L-1]`: the host's input for the current run (R45, R50, log 1). -/
  code : List Byte
  /-- The bytecodes the host is still going to start, the next one first (R362, log 4). -/
  starts : List (List Byte)
  /-- How many times gas_in has been read; the next read draws `Config.gasIn gasDraws` (R46, log 3). -/
  gasDraws : Nat
  /-- The events the diagnostic port has emitted, oldest first (R330, log 8). -/
  diag : List DiagEvent
  deriving DecidableEq, Repr

/-- The closed system of the host's interface, whose step takes no argument: the block and its surroundings (log 1). -/
structure State extends Block, Surroundings where
  deriving DecidableEq, Repr

/-- Why the machine itself would stop in a step: never. Every fault the spec names ends the RUN, not the block (R322): it is
a next state with RES latched (R326). The type has no constructor, so no step of this model ends in a fault; that is the
spec's own behaviour, neither safe nor unsafe. -/
inductive Fault where
  deriving DecidableEq, Repr

/-- Why a step has no meaning. -/
inductive Refusal where
  /-- Raised by an arm of exec whose instruction has no meaning yet: safe (the model stops where the hardware goes on). -/
  | notModelled (mnemonic : String)
  /-- Raised by step when the host's next start brings a bytecode longer than CODE_MAX, which the host must not do
  (70_reset_and_hazards.md R363, I13, log 6): safe. -/
  | codeTooLong
  deriving DecidableEq, Repr

/-- What a step, or the meaning of an instruction, answers. -/
abbrev StepOutcome := Host.Outcome State Fault Refusal

/-- RES at power-on (R41): not valid, the other fields at their listed values. -/
def Result.powerOn : Result where
  valid := false
  outcome := .success
  success := false
  code := 0
  kind := none
  faultPc := 0
  depth := 0
  stack := []

/-- The machine at power-on (70_reset_and_hazards.md R360). The host has started nothing, so no bytecode is present. -/
def State.reset : State where
  params := Config.params
  code := []
  starts := []
  gasDraws := 0
  phase := .idle
  pc := 0
  stack := []
  mem := []
  msize := 0
  jd := []
  res := .powerOn
  diag := []

end Sys2Proof.Machine
end

