-- ==== Sys2Proof/Machine/Memory.lean ====
section
/-! DEFINITION. The data memory M (spec 20_memory.md R60 to R70): bytes at natural-number addresses, held as the list of
those that are not 0 with strictly rising addresses; big-endian accesses of n bytes; the limit and the extent. -/

namespace Sys2Proof.Machine

/-- The canonical form from the address `lo` on: addresses rise strictly, and no listed byte is 0. -/
def Memory.wfFrom : (lo : Nat) → List Host.Cell → Bool
  | _, [] => true
  | lo, (a, b) :: rest => decide (lo ≤ a) && decide (b ≠ 0) && Memory.wfFrom (a + 1) rest

/-- The canonical form of data memory: equal memories are equal lists. -/
def Memory.wf (m : List Host.Cell) : Bool := Memory.wfFrom 0 m

/-- What a byte that nothing has written in this run reads as (R42, R65). -/
def Memory.unwritten : Byte := 0

/-- M[x]. -/
def Memory.read : List Host.Cell → (x : Nat) → Byte
  | [], _ => Memory.unwritten
  | (a, b) :: rest, x => if a = x then b else Memory.read rest x

/-- List the byte `v` at `x`, before the first higher address. -/
def Memory.insert : List Host.Cell → (x : Nat) → (v : Byte) → List Host.Cell
  | [], x, v => [(x, v)]
  | (a, b) :: rest, x, v => if x < a then (x, v) :: (a, b) :: rest else (a, b) :: Memory.insert rest x v

/-- List nothing at `x`. -/
def Memory.erase (m : List Host.Cell) (x : Nat) : List Host.Cell := m.filter fun c => c.1 != x

/-- M[x] <- v, keeping the canonical form: a byte that reads as unwritten is not listed. -/
def Memory.write (m : List Host.Cell) (x : Nat) (v : Byte) : List Host.Cell :=
  if v = Memory.unwritten then Memory.erase m x else Memory.insert (Memory.erase m x) x v

/-- The bytes at addresses addr, addr + 1, ..., addr + n - 1. -/
def Memory.readBytes (m : List Host.Cell) (addr n : Nat) : List Byte :=
  (List.range n).map fun j => Memory.read m (addr + j)

/-- Bytes put together, the first the most significant, zero-extended to a Word (R63, R94). -/
def wordOfBytes (bytes : List Byte) : Word :=
  BitVec.ofNat 256 (bytes.foldl (fun acc b => acc * 256 + b.toNat) 0)

/-- The low 8n bits of a Word as n bytes, the most significant first (R64). -/
def bytesOfWord (v : Word) (n : Nat) : List Byte :=
  (List.range n).map fun j => v.extractLsb' (8 * (n - 1 - j)) 8

/-- The bytes written one after the other from `addr` on. -/
def Memory.writeBytes : List Host.Cell → (addr : Nat) → (bytes : List Byte) → List Host.Cell
  | m, _, [] => m
  | m, addr, b :: rest => Memory.writeBytes (Memory.write m addr b) (addr + 1) rest

/-- `MemRead(addr, n)` of R63, as a Word (n at most 32). -/
def memRead (m : List Host.Cell) (addr n : Nat) : Word := wordOfBytes (Memory.readBytes m addr n)

/-- `MemWrite(addr, n, v)` of R64, of the low 8n bits of v. -/
def memWrite (m : List Host.Cell) (addr n : Nat) (v : Word) : List Host.Cell :=
  Memory.writeBytes m addr (bytesOfWord v n)

/-- An access of n bytes at addr is admitted: it does not pass MEM_LIMIT (R62). -/
def memAdmits (limit : Option Nat) (addr n : Nat) : Bool :=
  match limit with
  | none => true
  | some l => decide (addr + n ≤ l)

/-- msize after an admitted access of n bytes at addr (R66). -/
def extent (msize addr n : Nat) : Nat := max msize (32 * ((addr + n + 31) / 32))

end Sys2Proof.Machine
end

