-- ==== Sys2Proof/Machine/Scan.lean ====
section
/-! DEFINITION. The jump-destination scan (spec 30_encoding.md R99, R100): a pure function of the bytecode, run once at the
start of every run. -/

namespace Sys2Proof.Machine

/-- The byte of JUMPDEST (R92, R99). -/
def jumpdestByte : Byte := 0x5b

/-- How many immediate bytes the scan skips after `op`: `op - 0x60 + 1` in the PUSH range, 0 otherwise (R99). -/
def scanSkip (op : Byte) : Nat :=
  if 0x60 ≤ op.toNat ∧ op.toNat ≤ 0x7f then op.toNat - 0x60 + 1 else 0

/-- The scan from cursor `c` with `skip` immediate bytes still to pass over: the offsets of the JUMPDESTs it records. -/
def scanFrom : (c skip : Nat) → (bytes : List Byte) → List Nat
  | _, _, [] => []
  | c, k + 1, _ :: rest => scanFrom (c + 1) k rest
  | c, 0, op :: rest =>
    if op = jumpdestByte then c :: scanFrom (c + 1) 0 rest else scanFrom (c + 1) (scanSkip op) rest

/-- `scan(code, L)` of R99. -/
def scan (code : List Byte) : List Nat := scanFrom 0 0 code

end Sys2Proof.Machine
end

