-- ==== Sys2Proof/Machine/Ops.lean ====
section
/-! DEFINITION. The named operations over the block: stack positions and their replacement, the program counter, data-memory
accesses; how a step is given its inputs (spec 10_state.md R50) and its outputs are recorded; THE END OF A RUN (spec
60_exceptions.md R326: the one shared operation behind every exit and every fault) and THE START OF A RUN
(70_reset_and_hazards.md R361: the only way on after an outcome, R329). -/

namespace Sys2Proof.Machine

/-- STACK_MAX of R7: the most words the operand stack may hold (10_state.md R34). -/
def stackMax : Nat := 1024

/-- The number of entries on the stack (R13). -/
def Block.depth (b : Block) : Nat := b.stack.length

/-- S[i] of R13: the entry i places below the top. An entry at or below the depth is never read: every meaning checks the
depth first (R33, D28, log 10). -/
def Block.peek (b : Block) (i : Nat) : Word := b.stack.getD i 0

/-- `drop(k)`, then push the results so that the first-listed one ends in S[0] (R97). -/
def Block.replaceTop (k : Nat) (results : List Word) (b : Block) : Block :=
  { b with stack := results ++ b.stack.drop k }

/-- `(S[0], S[n]) <- (S[n], S[0])` (10_state.md R33, 46_push_dup_swap.md R280). -/
def Block.exchange (n : Nat) (b : Block) : Block :=
  { b with stack := (b.stack.set 0 (b.peek n)).set n (b.peek 0) }

/-- `pc <- t` (R14). -/
def Block.setPc (t : Nat) (b : Block) : Block := { b with pc := t }

/-- The offset of the opcode whose semantics run: the fetch has already added 1 to pc (R38, log 10). -/
def Block.ipc (b : Block) : Nat := b.pc - 1

/-- The extent bookkeeping of an admitted access of n bytes at addr (R66). -/
def Block.touch (addr n : Nat) (b : Block) : Block := { b with msize := extent b.msize addr n }

/-- An admitted store of the low 8n bits of v at addr (R64, R66). -/
def Block.store (addr n : Nat) (v : Word) (b : Block) : Block :=
  { b with mem := memWrite b.mem addr n v, msize := extent b.msize addr n }

/-- `diag(sev, what)` of R14 and R330: the event with the offset of the instruction. -/
def Block.report (severity : Severity) (what : DiagKind) (b : Block) : DiagEvent := ⟨severity, what, b.ipc⟩

/-! ## The step and its arguments -/

/-- `continue` (R14): the instruction is over, and nothing goes out. -/
def goOn (b : Block) : Reaction := { block := b, event := none, readsGas := false }

/-- The arguments of the next step (R50); gas_in is a free draw at each read (R46). -/
def State.inputs (s : State) : Inputs :=
  { params := s.params, code := s.code, gasIn := Config.gasIn s.gasDraws }

/-- The system after a reaction of its block: the event recorded (log 8), a read of gas_in counted (log 3). Parameters, code
and starts stay, whatever the block answers. -/
def State.after (r : Reaction) (s : State) : State :=
  { s with
    toBlock := r.block
    gasDraws := match r.readsGas with
      | true => s.gasDraws + 1
      | false => s.gasDraws
    diag := match r.event with
      | some e => s.diag ++ [e]
      | none => s.diag }

/-- Perform one step of the block: its inputs are passed as arguments, and only its answer is stored (R50). -/
def perform (f : Inputs → Block → Reaction) (s : State) : StepOutcome := .next (s.after (f s.inputs s.toBlock))

/-! ## The end of a run -/

/-- The numeric code of a fatal kind (R321). -/
def fatalCode : FatalKind → Nat
  | .stackUnderflow => 1
  | .stackOverflow => 2
  | .unknownOpcode => 3
  | .malformedPush => 4
  | .memoryLimit => 5

/-- How a run ends: `exit(code)` or `raise Fatal(kind)` (R320). -/
inductive RunEnd where
  | exit (code : Nat)
  | fatal (kind : FatalKind)
  deriving DecidableEq, Repr

/-- What the end of a run latches into RES (R326): the stack, top first, as it stands. -/
def endResult (e : RunEnd) (b : Block) : Result :=
  match e with
  | .exit code =>
    { valid := true
      outcome := if code = 0 then .success else .failure
      success := decide (code = 0)
      code := code
      kind := none
      faultPc := 0
      depth := b.depth
      stack := b.stack }
  | .fatal kind =>
    { valid := true
      outcome := .fatal
      success := false
      code := 0
      kind := some kind
      faultPc := b.ipc
      depth := b.depth
      stack := b.stack }

/-- The phase the end of a run leaves (R326). -/
def endPhase : RunEnd → Phase
  | .exit code => .exited code
  | .fatal kind => .fatal kind

/-- The diagnostic event of the end of a run, if it has one (R326, R330). -/
def endEvent (e : RunEnd) (b : Block) : Option DiagEvent :=
  match e with
  | .exit code => if code = 0 then none else some (b.report .warning .nonzeroExit)
  | .fatal _ => some (b.report .error .fatal)

/-- The end of a run (R326), in the step that ends it: latch RES, emit the event, set the phase, reset pc and S. Data
memory, msize and JD keep their values until the next start (D31). -/
def finish (e : RunEnd) (b : Block) : Reaction where
  block := { b with res := endResult e b, phase := endPhase e, pc := 0, stack := [] }
  event := endEvent e b
  readsGas := false

/-- The system after the end of a run from `s`. -/
def endRun (e : RunEnd) (s : State) : State := s.after (finish e s.toBlock)

/-- `raise Fatal(kind)` (R321, R323): nothing of the instruction has been applied. -/
def raise (kind : FatalKind) (b : Block) : Reaction := finish (.fatal kind) b

/-- `exit(code)` (R325). -/
def exitWith (code : Nat) (b : Block) : Reaction := finish (.exit code) b

/-! ## The start of a run -/

/-- What the start of a run with a bytecode does to the block (R361), one atomic transition; the entry point is code
offset 0. -/
def Block.start (code : List Byte) (b : Block) : Block :=
  { b with
    mem := []
    msize := 0
    stack := []
    pc := 0
    jd := scan code
    res := { b.res with valid := false }
    phase := .running }

/-- The host's start of a run with a bytecode: the block starts, and the code is its input from now on (R45, R361). -/
def beginRun (code : List Byte) (s : State) : State := { s with toBlock := s.toBlock.start code, code := code }

/-- What the block does in a phase other than Running (R346, R361, R362): it takes the host's next start, refused where the
bytecode is longer than CODE_MAX (R363, I13, log 6), and with no start pending it waits (log 5). -/
def awaitStart (s : State) : StepOutcome :=
  match s.starts with
  | [] => .next s
  | code :: later =>
    if code.length ≤ s.params.codeMax then .next (beginRun code { s with starts := later })
    else .refused .codeTooLong

/-- `busy` of R362. -/
def Block.busy (b : Block) : Bool := decide (b.phase = .running)

/-- `done` of R362: a run has ended. -/
def Block.done (b : Block) : Bool :=
  match b.phase with
  | .idle => false
  | .running => false
  | .exited _ => true
  | .fatal _ => true

end Sys2Proof.Machine
end

