-- ==== Sys2Proof/Machine/Operands.lean ====
section
/-! DEFINITION. Every operand form of EVMFS-core: the standard sequencing of stack operands (spec 30_encoding.md R97), the
ALU forms over it, memory operands (43_memory_ops.md R190), the PUSH immediate (R94, R104), the DUP and SWAP positions and
the jump target (44_stack_control.md R201). The meanings of the instructions are one call of a form each. -/

namespace Sys2Proof.Machine

/-- The standard sequencing of an instruction of arity (k, p) (R97): underflow, then overflow, then the instruction. -/
def standard (k p : Nat) (body : Block → Reaction) (b : Block) : Reaction :=
  if b.depth < k then raise .stackUnderflow b
  else if stackMax < b.depth - k + p then raise .stackOverflow b
  else body b

/-- An ALU instruction of one operand, a = S[0]. -/
def aluUnary (f : Word → Word) (b : Block) : Reaction :=
  standard 1 1 (fun b => goOn (b.replaceTop 1 [f (b.peek 0)])) b

/-- An ALU instruction of two operands, a = S[0] and b = S[1]. -/
def aluBinary (f : Word → Word → Word) (b : Block) : Reaction :=
  standard 2 1 (fun b => goOn (b.replaceTop 2 [f (b.peek 0) (b.peek 1)])) b

/-- An ALU instruction of three operands, a = S[0], b = S[1] and c = S[2]. -/
def aluTernary (f : Word → Word → Word → Word) (b : Block) : Reaction :=
  standard 3 1 (fun b => goOn (b.replaceTop 3 [f (b.peek 0) (b.peek 1) (b.peek 2)])) b

/-- BYTE's warning, where its offset S[0] is out of range (R174, R330). -/
def byteWarning (b : Block) : Option DiagEvent :=
  if byteOutOfRange (b.peek 0) then some (b.report .warning .byteOffsetOutOfRange) else none

/-- The effective address of a memory instruction: the whole unsigned value of S[0] (20_memory.md R61). -/
def Block.addr (b : Block) : Nat := (b.peek 0).toNat

/-- An access of n bytes at the effective address (R62): Fatal(MemoryLimit) where it passes MEM_LIMIT, else `body`. -/
def access (inp : Inputs) (n : Nat) (body : Block → Reaction) (b : Block) : Reaction :=
  if memAdmits inp.params.memLimit b.addr n then body b else raise .memoryLimit b

/-- A load of n bytes: the value replaces the offset (R191). -/
def loadWord (n : Nat) (inp : Inputs) (b : Block) : Reaction :=
  standard 1 1
    (access inp n fun b => goOn ((b.touch b.addr n).replaceTop 1 [memRead b.mem b.addr n])) b

/-- A store of the low n bytes of S[1] (R192, R193). -/
def storeWord (n : Nat) (inp : Inputs) (b : Block) : Reaction :=
  standard 2 0
    (access inp n fun b => goOn ((b.store b.addr n (b.peek 1)).replaceTop 2 [])) b

/-- A push of one Word that the instruction supplies (PC): arity (0, 1). -/
def pushWord (v : Block → Word) (b : Block) : Reaction :=
  standard 0 1 (fun b => goOn (b.replaceTop 0 [v b])) b

/-- PUSHn (R94, R230): fewer than n bytes after the opcode is Fatal(MalformedPush), checked first; else the bytes,
zero-extended, are pushed and pc moves past them. -/
def pushImmediate (n : Nat) (imm : List Byte) (b : Block) : Reaction :=
  if imm.length < n then raise .malformedPush b
  else standard 0 1 (fun b => goOn ((b.setPc (b.pc + n)).replaceTop 0 [wordOfBytes imm])) b

/-- DUPn (R263): arity (n, n+1); the n entries stay and S[n-1] is copied onto the top. -/
def dupEntry (n : Nat) (b : Block) : Reaction :=
  standard n (n + 1) (fun b => goOn (b.replaceTop 0 [b.peek (n - 1)])) b

/-- SWAPn (R280): S[0] and S[n] change places; the depth does not change, so nothing can overflow. -/
def swapEntry (n : Nat) (b : Block) : Reaction :=
  if b.depth < n + 1 then raise .stackUnderflow b else goOn (b.exchange n)

/-- `is_valid_jump_target` of R100 on the whole value of a Word. -/
def Block.validTarget (b : Block) (t : Word) : Bool := b.jd.contains t.toNat

/-- A jump to S[0] by an instruction that consumes k words (R201, R202): a target in JD is taken, any other ends the run
with exit code 1 and the operands kept (D14). -/
def jumpTaken (k : Nat) (b : Block) : Reaction :=
  if b.validTarget (b.peek 0) then goOn ((b.replaceTop k []).setPc (b.peek 0).toNat) else exitWith 1 b

end Sys2Proof.Machine
end

