-- ==== Sys2Proof/Machine/Arithmetic.lean ====
section
/-! DEFINITION. The arithmetic instructions (spec 40_arithmetic.md R120 to R133), over the ALU. -/

namespace Sys2Proof.Machine

/-- ADD: push w(a + b) (R121). -/
def execAdd (s : State) : StepOutcome := perform (fun _ => aluBinary aluAdd) s

/-- MUL: push w(a * b) (R122). -/
def execMul (s : State) : StepOutcome := perform (fun _ => aluBinary aluMul) s

/-- SUB: push w(a - b) (R123). -/
def execSub (s : State) : StepOutcome := perform (fun _ => aluBinary aluSub) s

/-- DIV: push a div b, 0 for b = 0 (R124). -/
def execDiv (s : State) : StepOutcome := perform (fun _ => aluBinary aluDiv) s

/-- SDIV: push the signed quotient toward zero, 0 for b = 0 (R125). -/
def execSdiv (s : State) : StepOutcome := perform (fun _ => aluBinary aluSdiv) s

/-- MOD: push a mod b, 0 for b = 0 (R126). -/
def execMod (s : State) : StepOutcome := perform (fun _ => aluBinary aluMod) s

/-- SMOD: push the signed remainder, 0 for b = 0 (R127). -/
def execSmod (s : State) : StepOutcome := perform (fun _ => aluBinary aluSmod) s

/-- ADDMOD: push (a + b) mod c, 0 for c = 0 (R128). -/
def execAddmod (s : State) : StepOutcome := perform (fun _ => aluTernary aluAddmod) s

/-- MULMOD: push (a * b) mod c, 0 for c = 0 (R129). -/
def execMulmod (s : State) : StepOutcome := perform (fun _ => aluTernary aluMulmod) s

/-- EXP: push w(a ^ b) (R130). -/
def execExp (s : State) : StepOutcome := perform (fun _ => aluBinary aluExp) s

end Sys2Proof.Machine
end

