-- ==== Sys2Proof/Machine/BitOps.lean ====
section
/-! DEFINITION. The shift and byte instructions (spec 42_bitops.md R170 to R175): S[0] is the shift amount or offset, S[1] the value. -/

namespace Sys2Proof.Machine

/-- BYTE: push byte S[0] of S[1], 0 and a warning for an offset of 32 or more (R174). -/
def execByte (s : State) : StepOutcome :=
  perform (fun _ => standard 2 1 fun b =>
    { goOn (b.replaceTop 2 [aluByte (b.peek 0) (b.peek 1)]) with event := byteWarning b }) s

/-- SHL: push x shifted left, 0 for a shift of 256 or more (R171). -/
def execShl (s : State) : StepOutcome := perform (fun _ => aluBinary aluShl) s

/-- SHR: push x shifted right, zeros entering (R172). -/
def execShr (s : State) : StepOutcome := perform (fun _ => aluBinary aluShr) s

/-- SAR: push x shifted right arithmetically, as SAR_MODE says (R173). -/
def execSar (s : State) : StepOutcome :=
  perform (fun inp => aluBinary (aluSar inp.params.sarMode)) s

end Sys2Proof.Machine
end

