-- ==== Sys2Proof/Machine/Compare.lean ====
section
/-! DEFINITION. The comparison and bitwise instructions (spec 41_compare_bitwise.md R150 to R161), over the ALU. -/

namespace Sys2Proof.Machine

/-- LT: push bool(u(a) < u(b)) (R151). -/
def execLt (s : State) : StepOutcome := perform (fun _ => aluBinary aluLt) s

/-- GT: push bool(u(a) > u(b)) (R152). -/
def execGt (s : State) : StepOutcome := perform (fun _ => aluBinary aluGt) s

/-- SLT: push bool(s(a) < s(b)) (R153). -/
def execSlt (s : State) : StepOutcome := perform (fun _ => aluBinary aluSlt) s

/-- SGT: push SLT(b, a) (R154). -/
def execSgt (s : State) : StepOutcome := perform (fun _ => aluBinary aluSgt) s

/-- EQ: push bool(a = b) (R155). -/
def execEq (s : State) : StepOutcome := perform (fun _ => aluBinary aluEq) s

/-- ISZERO: push bool(a = 0) (R156). -/
def execIszero (s : State) : StepOutcome := perform (fun _ => aluUnary aluIszero) s

/-- AND: push a & b (R157). -/
def execAnd (s : State) : StepOutcome := perform (fun _ => aluBinary aluAnd) s

/-- OR: push a | b (R158). -/
def execOr (s : State) : StepOutcome := perform (fun _ => aluBinary aluOr) s

/-- XOR: push a ^ b, bitwise (R159). -/
def execXor (s : State) : StepOutcome := perform (fun _ => aluBinary aluXor) s

/-- NOT: push ~a (R160). -/
def execNot (s : State) : StepOutcome := perform (fun _ => aluUnary aluNot) s

end Sys2Proof.Machine
end

