-- ==== Sys2Proof/Machine/Dup.lean ====
section
/-! DEFINITION. DUP1 .. DUP16 (spec 46_push_dup_swap.md R263 to R279). -/

namespace Sys2Proof.Machine

/-- DUP1 (R264). -/
def execDup1 (s : State) : StepOutcome := perform (fun _ => dupEntry 1) s

/-- DUP2 (R265). -/
def execDup2 (s : State) : StepOutcome := perform (fun _ => dupEntry 2) s

/-- DUP3 (R266). -/
def execDup3 (s : State) : StepOutcome := perform (fun _ => dupEntry 3) s

/-- DUP4 (R267). -/
def execDup4 (s : State) : StepOutcome := perform (fun _ => dupEntry 4) s

/-- DUP5 (R268). -/
def execDup5 (s : State) : StepOutcome := perform (fun _ => dupEntry 5) s

/-- DUP6 (R269). -/
def execDup6 (s : State) : StepOutcome := perform (fun _ => dupEntry 6) s

/-- DUP7 (R270). -/
def execDup7 (s : State) : StepOutcome := perform (fun _ => dupEntry 7) s

/-- DUP8 (R271). -/
def execDup8 (s : State) : StepOutcome := perform (fun _ => dupEntry 8) s

/-- DUP9 (R272). -/
def execDup9 (s : State) : StepOutcome := perform (fun _ => dupEntry 9) s

/-- DUP10 (R273). -/
def execDup10 (s : State) : StepOutcome := perform (fun _ => dupEntry 10) s

/-- DUP11 (R274). -/
def execDup11 (s : State) : StepOutcome := perform (fun _ => dupEntry 11) s

/-- DUP12 (R275). -/
def execDup12 (s : State) : StepOutcome := perform (fun _ => dupEntry 12) s

/-- DUP13 (R276). -/
def execDup13 (s : State) : StepOutcome := perform (fun _ => dupEntry 13) s

/-- DUP14 (R277). -/
def execDup14 (s : State) : StepOutcome := perform (fun _ => dupEntry 14) s

/-- DUP15 (R278). -/
def execDup15 (s : State) : StepOutcome := perform (fun _ => dupEntry 15) s

/-- DUP16 (R279). -/
def execDup16 (s : State) : StepOutcome := perform (fun _ => dupEntry 16) s

end Sys2Proof.Machine
end

