-- ==== Sys2Proof/Machine/MemoryOps.lean ====
section
/-! DEFINITION. The memory instructions (spec 43_memory_ops.md R190 to R193). -/

namespace Sys2Proof.Machine

/-- MLOAD: push the 32 bytes at S[0], big-endian (R191). -/
def execMload (s : State) : StepOutcome := perform (loadWord 32) s

/-- MSTORE: store S[1] big-endian in the 32 bytes at S[0] (R192). -/
def execMstore (s : State) : StepOutcome := perform (storeWord 32) s

/-- MSTORE8: store the low byte of S[1] at S[0] (R193). -/
def execMstore8 (s : State) : StepOutcome := perform (storeWord 1) s

end Sys2Proof.Machine
end

