-- ==== Sys2Proof/Machine/Push.lean ====
section
/-! DEFINITION. PUSH1 .. PUSH32 (spec 46_push_dup_swap.md R230 to R262). -/

namespace Sys2Proof.Machine

/-- PUSH1 (R231). -/
def execPush1 (imm : List Byte) (s : State) : StepOutcome := perform (fun _ => pushImmediate 1 imm) s

/-- PUSH2 (R232). -/
def execPush2 (imm : List Byte) (s : State) : StepOutcome := perform (fun _ => pushImmediate 2 imm) s

/-- PUSH3 (R233). -/
def execPush3 (imm : List Byte) (s : State) : StepOutcome := perform (fun _ => pushImmediate 3 imm) s

/-- PUSH4 (R234). -/
def execPush4 (imm : List Byte) (s : State) : StepOutcome := perform (fun _ => pushImmediate 4 imm) s

/-- PUSH5 (R235). -/
def execPush5 (imm : List Byte) (s : State) : StepOutcome := perform (fun _ => pushImmediate 5 imm) s

/-- PUSH6 (R236). -/
def execPush6 (imm : List Byte) (s : State) : StepOutcome := perform (fun _ => pushImmediate 6 imm) s

/-- PUSH7 (R237). -/
def execPush7 (imm : List Byte) (s : State) : StepOutcome := perform (fun _ => pushImmediate 7 imm) s

/-- PUSH8 (R238). -/
def execPush8 (imm : List Byte) (s : State) : StepOutcome := perform (fun _ => pushImmediate 8 imm) s

/-- PUSH9 (R239). -/
def execPush9 (imm : List Byte) (s : State) : StepOutcome := perform (fun _ => pushImmediate 9 imm) s

/-- PUSH10 (R240). -/
def execPush10 (imm : List Byte) (s : State) : StepOutcome := perform (fun _ => pushImmediate 10 imm) s

/-- PUSH11 (R241). -/
def execPush11 (imm : List Byte) (s : State) : StepOutcome := perform (fun _ => pushImmediate 11 imm) s

/-- PUSH12 (R242). -/
def execPush12 (imm : List Byte) (s : State) : StepOutcome := perform (fun _ => pushImmediate 12 imm) s

/-- PUSH13 (R243). -/
def execPush13 (imm : List Byte) (s : State) : StepOutcome := perform (fun _ => pushImmediate 13 imm) s

/-- PUSH14 (R244). -/
def execPush14 (imm : List Byte) (s : State) : StepOutcome := perform (fun _ => pushImmediate 14 imm) s

/-- PUSH15 (R245). -/
def execPush15 (imm : List Byte) (s : State) : StepOutcome := perform (fun _ => pushImmediate 15 imm) s

/-- PUSH16 (R246). -/
def execPush16 (imm : List Byte) (s : State) : StepOutcome := perform (fun _ => pushImmediate 16 imm) s

/-- PUSH17 (R247). -/
def execPush17 (imm : List Byte) (s : State) : StepOutcome := perform (fun _ => pushImmediate 17 imm) s

/-- PUSH18 (R248). -/
def execPush18 (imm : List Byte) (s : State) : StepOutcome := perform (fun _ => pushImmediate 18 imm) s

/-- PUSH19 (R249). -/
def execPush19 (imm : List Byte) (s : State) : StepOutcome := perform (fun _ => pushImmediate 19 imm) s

/-- PUSH20 (R250). -/
def execPush20 (imm : List Byte) (s : State) : StepOutcome := perform (fun _ => pushImmediate 20 imm) s

/-- PUSH21 (R251). -/
def execPush21 (imm : List Byte) (s : State) : StepOutcome := perform (fun _ => pushImmediate 21 imm) s

/-- PUSH22 (R252). -/
def execPush22 (imm : List Byte) (s : State) : StepOutcome := perform (fun _ => pushImmediate 22 imm) s

/-- PUSH23 (R253). -/
def execPush23 (imm : List Byte) (s : State) : StepOutcome := perform (fun _ => pushImmediate 23 imm) s

/-- PUSH24 (R254). -/
def execPush24 (imm : List Byte) (s : State) : StepOutcome := perform (fun _ => pushImmediate 24 imm) s

/-- PUSH25 (R255). -/
def execPush25 (imm : List Byte) (s : State) : StepOutcome := perform (fun _ => pushImmediate 25 imm) s

/-- PUSH26 (R256). -/
def execPush26 (imm : List Byte) (s : State) : StepOutcome := perform (fun _ => pushImmediate 26 imm) s

/-- PUSH27 (R257). -/
def execPush27 (imm : List Byte) (s : State) : StepOutcome := perform (fun _ => pushImmediate 27 imm) s

/-- PUSH28 (R258). -/
def execPush28 (imm : List Byte) (s : State) : StepOutcome := perform (fun _ => pushImmediate 28 imm) s

/-- PUSH29 (R259). -/
def execPush29 (imm : List Byte) (s : State) : StepOutcome := perform (fun _ => pushImmediate 29 imm) s

/-- PUSH30 (R260). -/
def execPush30 (imm : List Byte) (s : State) : StepOutcome := perform (fun _ => pushImmediate 30 imm) s

/-- PUSH31 (R261). -/
def execPush31 (imm : List Byte) (s : State) : StepOutcome := perform (fun _ => pushImmediate 31 imm) s

/-- PUSH32 (R262). -/
def execPush32 (imm : List Byte) (s : State) : StepOutcome := perform (fun _ => pushImmediate 32 imm) s

end Sys2Proof.Machine
end

