-- ==== Sys2Proof/Machine/StackControl.lean ====
section
/-! DEFINITION. The stack and control-flow instructions (spec 44_stack_control.md R200 to R205). -/

namespace Sys2Proof.Machine

/-- POP: discard the top word (R200). -/
def execPop (s : State) : StepOutcome := perform (fun _ => standard 1 0 fun b => goOn (b.replaceTop 1 [])) s

/-- JUMP: to S[0], which must be in JD (R201). -/
def execJump (s : State) : StepOutcome :=
  perform (fun _ b => if b.depth < 1 then raise .stackUnderflow b else jumpTaken 1 b) s

/-- JUMPI: to S[0] where S[1] is not 0; where it is 0 the target is not checked (R202). -/
def execJumpi (s : State) : StepOutcome :=
  perform
    (fun _ b =>
      if b.depth < 2 then raise .stackUnderflow b
      else if b.peek 1 ≠ 0 then jumpTaken 2 b
      else goOn (b.replaceTop 2 [])) s

/-- PC: push the offset of this instruction (R203). -/
def execPc (s : State) : StepOutcome := perform (fun _ => pushWord fun b => BitVec.ofNat 256 b.ipc) s

/-- JUMPDEST: a no-op (R204). -/
def execJumpdest (s : State) : StepOutcome := perform (fun _ => goOn) s

end Sys2Proof.Machine
end

