-- ==== Sys2Proof/Machine/Swap.lean ====
section
/-! DEFINITION. SWAP1 .. SWAP16 (spec 46_push_dup_swap.md R280 to R296). -/

namespace Sys2Proof.Machine

/-- SWAP1 (R281). -/
def execSwap1 (s : State) : StepOutcome := perform (fun _ => swapEntry 1) s

/-- SWAP2 (R282). -/
def execSwap2 (s : State) : StepOutcome := perform (fun _ => swapEntry 2) s

/-- SWAP3 (R283). -/
def execSwap3 (s : State) : StepOutcome := perform (fun _ => swapEntry 3) s

/-- SWAP4 (R284). -/
def execSwap4 (s : State) : StepOutcome := perform (fun _ => swapEntry 4) s

/-- SWAP5 (R285). -/
def execSwap5 (s : State) : StepOutcome := perform (fun _ => swapEntry 5) s

/-- SWAP6 (R286). -/
def execSwap6 (s : State) : StepOutcome := perform (fun _ => swapEntry 6) s

/-- SWAP7 (R287). -/
def execSwap7 (s : State) : StepOutcome := perform (fun _ => swapEntry 7) s

/-- SWAP8 (R288). -/
def execSwap8 (s : State) : StepOutcome := perform (fun _ => swapEntry 8) s

/-- SWAP9 (R289). -/
def execSwap9 (s : State) : StepOutcome := perform (fun _ => swapEntry 9) s

/-- SWAP10 (R290). -/
def execSwap10 (s : State) : StepOutcome := perform (fun _ => swapEntry 10) s

/-- SWAP11 (R291). -/
def execSwap11 (s : State) : StepOutcome := perform (fun _ => swapEntry 11) s

/-- SWAP12 (R292). -/
def execSwap12 (s : State) : StepOutcome := perform (fun _ => swapEntry 12) s

/-- SWAP13 (R293). -/
def execSwap13 (s : State) : StepOutcome := perform (fun _ => swapEntry 13) s

/-- SWAP14 (R294). -/
def execSwap14 (s : State) : StepOutcome := perform (fun _ => swapEntry 14) s

/-- SWAP15 (R295). -/
def execSwap15 (s : State) : StepOutcome := perform (fun _ => swapEntry 15) s

/-- SWAP16 (R296). -/
def execSwap16 (s : State) : StepOutcome := perform (fun _ => swapEntry 16) s

end Sys2Proof.Machine
end

