-- ==== Sys2Proof/Machine/SystemOps.lean ====
section
/-! DEFINITION. The system instructions (spec 45_system.md R220 to R223). -/

namespace Sys2Proof.Machine

/-- STOP: exit(0) (R221). -/
def execStop (s : State) : StepOutcome := perform (fun _ => exitWith 0) s

/-- GAS: push the host input gas_in, a free draw at this read (R222). -/
def execGas (s : State) : StepOutcome :=
  perform (fun inp => standard 0 1 fun b => { goOn (b.replaceTop 0 [inp.gasIn]) with readsGas := true }) s

/-- INVALID: exit(1), the controlled failure of the bytecode (R223). -/
def execInvalid (s : State) : StepOutcome := perform (fun _ => exitWith 1) s

end Sys2Proof.Machine
end

