-- ==== Sys2Proof/Decode.lean ====
section
/-! DEFINITION. The decoder and the encoder (spec 30_encoding.md R90 to R96, R102): the opcode map, the families by their
fixed high bits, the PUSH immediate, the length and the arity of every instruction. -/

namespace Sys2Proof

/-- Why bytes are no instruction. -/
inductive DecodeError where
  /-- There is no byte to decode (R93, pc >= L). -/
  | endOfCode
  /-- The byte is not in the opcode map R92 (R96). -/
  | unknownOpcode (op : Byte)
  deriving DecidableEq, Repr

/-- The single opcodes of R92 below 0x50. -/
def singleOpcodesLow : List (Byte × Instr) :=
  [(0x00, .stop), (0x01, .add), (0x02, .mul), (0x03, .sub), (0x04, .div),
   (0x05, .sdiv), (0x06, .mod), (0x07, .smod), (0x08, .addmod), (0x09, .mulmod),
   (0x0a, .exp), (0x10, .lt), (0x11, .gt), (0x12, .slt), (0x13, .sgt),
   (0x14, .eq), (0x15, .iszero), (0x16, .and), (0x17, .or), (0x18, .xor),
   (0x19, .not), (0x1a, .byte), (0x1b, .shl), (0x1c, .shr), (0x1d, .sar)]

/-- The single opcodes of R92 from 0x50 on. -/
def singleOpcodesHigh : List (Byte × Instr) :=
  [(0x50, .pop), (0x51, .mload), (0x52, .mstore), (0x53, .mstore8), (0x56, .jump),
   (0x57, .jumpi), (0x58, .pc), (0x5a, .gas), (0x5b, .jumpdest), (0xfe, .invalid)]

/-- The 35 single opcodes of the opcode map R92. -/
def singleOpcodes : List (Byte × Instr) := singleOpcodesLow ++ singleOpcodesHigh

/-- PUSH1 .. PUSH32 in order (R92), each waiting for its immediate bytes. -/
def pushFamily : List (List Byte → Instr) :=
  [.push1, .push2, .push3, .push4, .push5,
   .push6, .push7, .push8, .push9, .push10,
   .push11, .push12, .push13, .push14, .push15,
   .push16, .push17, .push18, .push19, .push20,
   .push21, .push22, .push23, .push24, .push25,
   .push26, .push27, .push28, .push29, .push30,
   .push31, .push32]

/-- DUP1 .. DUP16 in order (R92). -/
def dupFamily : List Instr :=
  [.dup1, .dup2, .dup3, .dup4, .dup5,
   .dup6, .dup7, .dup8, .dup9, .dup10,
   .dup11, .dup12, .dup13, .dup14, .dup15,
   .dup16]

/-- SWAP1 .. SWAP16 in order (R92). -/
def swapFamily : List Instr :=
  [.swap1, .swap2, .swap3, .swap4, .swap5,
   .swap6, .swap7, .swap8, .swap9, .swap10,
   .swap11, .swap12, .swap13, .swap14, .swap15,
   .swap16]

/-- Decoding at the head of `bytes` (R95): exact equality for the single opcodes, the fixed high bits for the families
(R90). A PUSHn takes the n bytes after its opcode, or what is left of the code where fewer are left: the shortfall is no
decoding error but PUSHn's own Fatal(MalformedPush) (R94, R100). The answer carries the bytes after the instruction. -/
def decode (bytes : List Byte) : Except DecodeError (Instr × List Byte) :=
  match bytes with
  | [] => .error .endOfCode
  | op :: rest =>
    match singleOpcodes.lookup op with
    | some i => .ok (i, rest)
    | none =>
      if op.extractLsb 7 5 = 0b011#3 then
        let k := (op.extractLsb 4 0).toNat
        match pushFamily[k]? with
        | some push => .ok (push (rest.take (k + 1)), rest.drop (k + 1))
        | none => .error (.unknownOpcode op)
      else if op.extractLsb 7 4 = 0b1000#4 then
        match dupFamily[(op.extractLsb 3 0).toNat]? with
        | some i => .ok (i, rest)
        | none => .error (.unknownOpcode op)
      else if op.extractLsb 7 4 = 0b1001#4 then
        match swapFamily[(op.extractLsb 3 0).toNat]? with
        | some i => .ok (i, rest)
        | none => .error (.unknownOpcode op)
      else .error (.unknownOpcode op)

/-- The bytes of an instruction, from the opcode map R92 and the formats of R90. -/
def encode : Instr → List Byte
  | .stop => [0x00]
  | .add => [0x01]
  | .mul => [0x02]
  | .sub => [0x03]
  | .div => [0x04]
  | .sdiv => [0x05]
  | .mod => [0x06]
  | .smod => [0x07]
  | .addmod => [0x08]
  | .mulmod => [0x09]
  | .exp => [0x0a]
  | .lt => [0x10]
  | .gt => [0x11]
  | .slt => [0x12]
  | .sgt => [0x13]
  | .eq => [0x14]
  | .iszero => [0x15]
  | .and => [0x16]
  | .or => [0x17]
  | .xor => [0x18]
  | .not => [0x19]
  | .byte => [0x1a]
  | .shl => [0x1b]
  | .shr => [0x1c]
  | .sar => [0x1d]
  | .pop => [0x50]
  | .mload => [0x51]
  | .mstore => [0x52]
  | .mstore8 => [0x53]
  | .jump => [0x56]
  | .jumpi => [0x57]
  | .pc => [0x58]
  | .gas => [0x5a]
  | .jumpdest => [0x5b]
  | .push1 imm => 0x60 :: imm
  | .push2 imm => 0x61 :: imm
  | .push3 imm => 0x62 :: imm
  | .push4 imm => 0x63 :: imm
  | .push5 imm => 0x64 :: imm
  | .push6 imm => 0x65 :: imm
  | .push7 imm => 0x66 :: imm
  | .push8 imm => 0x67 :: imm
  | .push9 imm => 0x68 :: imm
  | .push10 imm => 0x69 :: imm
  | .push11 imm => 0x6a :: imm
  | .push12 imm => 0x6b :: imm
  | .push13 imm => 0x6c :: imm
  | .push14 imm => 0x6d :: imm
  | .push15 imm => 0x6e :: imm
  | .push16 imm => 0x6f :: imm
  | .push17 imm => 0x70 :: imm
  | .push18 imm => 0x71 :: imm
  | .push19 imm => 0x72 :: imm
  | .push20 imm => 0x73 :: imm
  | .push21 imm => 0x74 :: imm
  | .push22 imm => 0x75 :: imm
  | .push23 imm => 0x76 :: imm
  | .push24 imm => 0x77 :: imm
  | .push25 imm => 0x78 :: imm
  | .push26 imm => 0x79 :: imm
  | .push27 imm => 0x7a :: imm
  | .push28 imm => 0x7b :: imm
  | .push29 imm => 0x7c :: imm
  | .push30 imm => 0x7d :: imm
  | .push31 imm => 0x7e :: imm
  | .push32 imm => 0x7f :: imm
  | .dup1 => [0x80]
  | .dup2 => [0x81]
  | .dup3 => [0x82]
  | .dup4 => [0x83]
  | .dup5 => [0x84]
  | .dup6 => [0x85]
  | .dup7 => [0x86]
  | .dup8 => [0x87]
  | .dup9 => [0x88]
  | .dup10 => [0x89]
  | .dup11 => [0x8a]
  | .dup12 => [0x8b]
  | .dup13 => [0x8c]
  | .dup14 => [0x8d]
  | .dup15 => [0x8e]
  | .dup16 => [0x8f]
  | .swap1 => [0x90]
  | .swap2 => [0x91]
  | .swap3 => [0x92]
  | .swap4 => [0x93]
  | .swap5 => [0x94]
  | .swap6 => [0x95]
  | .swap7 => [0x96]
  | .swap8 => [0x97]
  | .swap9 => [0x98]
  | .swap10 => [0x99]
  | .swap11 => [0x9a]
  | .swap12 => [0x9b]
  | .swap13 => [0x9c]
  | .swap14 => [0x9d]
  | .swap15 => [0x9e]
  | .swap16 => [0x9f]
  | .invalid => [0xfe]

/-- The length in bytes that R92 and R102 give an instruction; it follows from the opcode alone. -/
def instrLength : Instr → Nat
  | .stop => 1
  | .add => 1
  | .mul => 1
  | .sub => 1
  | .div => 1
  | .sdiv => 1
  | .mod => 1
  | .smod => 1
  | .addmod => 1
  | .mulmod => 1
  | .exp => 1
  | .lt => 1
  | .gt => 1
  | .slt => 1
  | .sgt => 1
  | .eq => 1
  | .iszero => 1
  | .and => 1
  | .or => 1
  | .xor => 1
  | .not => 1
  | .byte => 1
  | .shl => 1
  | .shr => 1
  | .sar => 1
  | .pop => 1
  | .mload => 1
  | .mstore => 1
  | .mstore8 => 1
  | .jump => 1
  | .jumpi => 1
  | .pc => 1
  | .gas => 1
  | .jumpdest => 1
  | .push1 _ => 2
  | .push2 _ => 3
  | .push3 _ => 4
  | .push4 _ => 5
  | .push5 _ => 6
  | .push6 _ => 7
  | .push7 _ => 8
  | .push8 _ => 9
  | .push9 _ => 10
  | .push10 _ => 11
  | .push11 _ => 12
  | .push12 _ => 13
  | .push13 _ => 14
  | .push14 _ => 15
  | .push15 _ => 16
  | .push16 _ => 17
  | .push17 _ => 18
  | .push18 _ => 19
  | .push19 _ => 20
  | .push20 _ => 21
  | .push21 _ => 22
  | .push22 _ => 23
  | .push23 _ => 24
  | .push24 _ => 25
  | .push25 _ => 26
  | .push26 _ => 27
  | .push27 _ => 28
  | .push28 _ => 29
  | .push29 _ => 30
  | .push30 _ => 31
  | .push31 _ => 32
  | .push32 _ => 33
  | .dup1 => 1
  | .dup2 => 1
  | .dup3 => 1
  | .dup4 => 1
  | .dup5 => 1
  | .dup6 => 1
  | .dup7 => 1
  | .dup8 => 1
  | .dup9 => 1
  | .dup10 => 1
  | .dup11 => 1
  | .dup12 => 1
  | .dup13 => 1
  | .dup14 => 1
  | .dup15 => 1
  | .dup16 => 1
  | .swap1 => 1
  | .swap2 => 1
  | .swap3 => 1
  | .swap4 => 1
  | .swap5 => 1
  | .swap6 => 1
  | .swap7 => 1
  | .swap8 => 1
  | .swap9 => 1
  | .swap10 => 1
  | .swap11 => 1
  | .swap12 => 1
  | .swap13 => 1
  | .swap14 => 1
  | .swap15 => 1
  | .swap16 => 1
  | .invalid => 1

/-- The columns k and p of R92: how many Words an instruction consumes from the top and how many it produces. -/
def arity : Instr → Nat × Nat
  | .stop => (0, 0)
  | .add => (2, 1)
  | .mul => (2, 1)
  | .sub => (2, 1)
  | .div => (2, 1)
  | .sdiv => (2, 1)
  | .mod => (2, 1)
  | .smod => (2, 1)
  | .addmod => (3, 1)
  | .mulmod => (3, 1)
  | .exp => (2, 1)
  | .lt => (2, 1)
  | .gt => (2, 1)
  | .slt => (2, 1)
  | .sgt => (2, 1)
  | .eq => (2, 1)
  | .iszero => (1, 1)
  | .and => (2, 1)
  | .or => (2, 1)
  | .xor => (2, 1)
  | .not => (1, 1)
  | .byte => (2, 1)
  | .shl => (2, 1)
  | .shr => (2, 1)
  | .sar => (2, 1)
  | .pop => (1, 0)
  | .mload => (1, 1)
  | .mstore => (2, 0)
  | .mstore8 => (2, 0)
  | .jump => (1, 0)
  | .jumpi => (2, 0)
  | .pc => (0, 1)
  | .gas => (0, 1)
  | .jumpdest => (0, 0)
  | .push1 _ => (0, 1)
  | .push2 _ => (0, 1)
  | .push3 _ => (0, 1)
  | .push4 _ => (0, 1)
  | .push5 _ => (0, 1)
  | .push6 _ => (0, 1)
  | .push7 _ => (0, 1)
  | .push8 _ => (0, 1)
  | .push9 _ => (0, 1)
  | .push10 _ => (0, 1)
  | .push11 _ => (0, 1)
  | .push12 _ => (0, 1)
  | .push13 _ => (0, 1)
  | .push14 _ => (0, 1)
  | .push15 _ => (0, 1)
  | .push16 _ => (0, 1)
  | .push17 _ => (0, 1)
  | .push18 _ => (0, 1)
  | .push19 _ => (0, 1)
  | .push20 _ => (0, 1)
  | .push21 _ => (0, 1)
  | .push22 _ => (0, 1)
  | .push23 _ => (0, 1)
  | .push24 _ => (0, 1)
  | .push25 _ => (0, 1)
  | .push26 _ => (0, 1)
  | .push27 _ => (0, 1)
  | .push28 _ => (0, 1)
  | .push29 _ => (0, 1)
  | .push30 _ => (0, 1)
  | .push31 _ => (0, 1)
  | .push32 _ => (0, 1)
  | .dup1 => (1, 2)
  | .dup2 => (2, 3)
  | .dup3 => (3, 4)
  | .dup4 => (4, 5)
  | .dup5 => (5, 6)
  | .dup6 => (6, 7)
  | .dup7 => (7, 8)
  | .dup8 => (8, 9)
  | .dup9 => (9, 10)
  | .dup10 => (10, 11)
  | .dup11 => (11, 12)
  | .dup12 => (12, 13)
  | .dup13 => (13, 14)
  | .dup14 => (14, 15)
  | .dup15 => (15, 16)
  | .dup16 => (16, 17)
  | .swap1 => (2, 2)
  | .swap2 => (3, 3)
  | .swap3 => (4, 4)
  | .swap4 => (5, 5)
  | .swap5 => (6, 6)
  | .swap6 => (7, 7)
  | .swap7 => (8, 8)
  | .swap8 => (9, 9)
  | .swap9 => (10, 10)
  | .swap10 => (11, 11)
  | .swap11 => (12, 12)
  | .swap12 => (13, 13)
  | .swap13 => (14, 14)
  | .swap14 => (15, 15)
  | .swap15 => (16, 16)
  | .swap16 => (17, 17)
  | .invalid => (0, 0)

/-- How many bytes the longest instruction has (PUSH32, R102). -/
def longestInstr : Nat := 33

/-- The bytes of an instruction whose bits are `w`, bit 0 the least significant bit of the first byte (the numbering of
opcode_table.json): its first `nbits / 8` bytes from `w`, zeros above, up to the longest instruction. Fetch is one byte at
a time, so the bytes stand in this order in the code store (20_memory.md R67). -/
def tableWordBytes (nbits w : Nat) : List Byte :=
  (List.range longestInstr).map fun j => if j < nbits / 8 then BitVec.ofNat 8 (w >>> (8 * j)) else 0

/-- The instruction the decoder reads from the bits `w`; none where it refuses. -/
def decodeTableWord (nbits w : Nat) : Option Instr :=
  match decode (tableWordBytes nbits w) with
  | .ok (i, _) => some i
  | .error _ => none

end Sys2Proof
end

