-- ==== Sys2Proof/Machine/Fetch.lean ====
section
/-! DEFINITION. Fetching an instruction (spec 30_encoding.md R93): one byte of code space at pc, pc + 1 before the
instruction runs, and the immediate bytes that follow a PUSH (R94). Also how the bytes of one instruction are laid where
the next fetch finds them. -/

namespace Sys2Proof.Machine

/-- What a fetch finds. -/
inductive Fetched where
  /-- pc >= L: the implicit STOP. -/
  | endOfCode
  /-- A byte outside the opcode map; the block after pc + 1. -/
  | unknown (b : Block)
  /-- An instruction; the block after pc + 1. -/
  | instr (i : Instr) (b : Block)
  deriving DecidableEq, Repr

/-- The bytes of code space from pc on. -/
def Block.ahead (code : List Byte) (b : Block) : List Byte := code.drop b.pc

/-- The fetch of one step (R93), the code an argument (R50). -/
def fetch (code : List Byte) (b : Block) : Fetched :=
  match decode (b.ahead code) with
  | .error .endOfCode => .endOfCode
  | .error (.unknownOpcode _) => .unknown (b.setPc (b.pc + 1))
  | .ok (i, _) => .instr i (b.setPc (b.pc + 1))

/-- `code` with `bytes` laid from the offset `at_` on, zeros where the code was shorter than that. -/
def layBytes (code : List Byte) (at_ : Nat) (bytes : List Byte) : List Byte :=
  (code ++ List.replicate (at_ - code.length) 0).take at_ ++ bytes ++ code.drop (at_ + bytes.length)

/-- A run in progress whose next fetch finds `bytes`: they are laid at pc, JD is the scan of the code so changed (R99), and
the phase is Running. -/
def State.withBytesAhead (s : State) (bytes : List Byte) : State :=
  let code := layBytes s.code s.pc bytes
  { s with code := code, jd := scan code, phase := .running }

end Sys2Proof.Machine
end

