-- ==== Sys2Proof/Machine/Step.lean ====
section
/-! DEFINITION. One step of the block (spec 30_encoding.md R93, 70_reset_and_hazards.md R362). -/

namespace Sys2Proof.Machine

/-- One step of a Running block (R93). -/
def runStep (s : State) : StepOutcome :=
  match fetch s.code s.toBlock with
  | .endOfCode => perform (fun _ => exitWith 0) s
  | .unknown b => perform (fun _ => raise .unknownOpcode) { s with toBlock := b }
  | .instr i b => exec i { s with toBlock := b }

/-- One step: an instruction while Running, otherwise the host's next start (R362). -/
def step (s : State) : Host.Outcome State Fault Refusal :=
  match s.phase with
  | .running => runStep s
  | .idle => awaitStart s
  | .exited _ => awaitStart s
  | .fatal _ => awaitStart s

/-- `s` with the instruction whose bits are `w` (numbered as spec/opcode_table.json numbers them) where the next step
fetches: its bytes at pc, JD scanned from the code so changed, a run in progress. It stands for the host's load of a program
(log 7). -/
def State.withFetchWord (s : State) (nbits w : Nat) : State := s.withBytesAhead (tableWordBytes nbits w)

end Sys2Proof.Machine
end

