-- ==== Sys2Proof/Safety.lean ====
section
/-! DEFINITION. What claims about EVMFS-core are stated in: the invariants of its reachable states (spec 10_state.md R51 and
what the model adds), instruction boundaries of a bytecode, and when two states are the same run. -/

namespace Sys2Proof.Machine

/-- What RES says agrees with the phase (R41, R325, R326): no result is present while no run has ended; an ended run has
latched its outcome, with an exit code of 0 or 1. -/
def State.LatchAgrees (s : State) : Prop :=
  match s.phase with
  | .idle => s.res.valid = false
  | .running => s.res.valid = false
  | .exited code =>
    s.res.valid = true ∧ s.res.code = code ∧ code ≤ 1 ∧ s.res.kind = none ∧ s.res.faultPc = 0 ∧
      s.res.outcome = (if code = 0 then .success else .failure) ∧ s.res.success = decide (code = 0)
  | .fatal kind =>
    s.res.valid = true ∧ s.res.code = 0 ∧ s.res.kind = some kind ∧ s.res.outcome = .fatal ∧ s.res.success = false

/-- What every reachable state keeps: R51, with the ranges of the parameters (R7), of L (R36) and of RES (R41), and the
canonical form of data memory. -/
structure State.Inv (s : State) : Prop where
  /-- The parameters are within the ranges of R7. -/
  params : s.params.Valid
  /-- L <= CODE_MAX (R45). -/
  codeLength : s.code.length ≤ s.params.codeMax
  /-- depth <= 1024 (R51). -/
  depth : s.stack.length ≤ 1024
  /-- pc <= L (R51). -/
  pc : s.pc ≤ s.code.length
  /-- msize is a multiple of 32 (R51). -/
  msize : s.msize % 32 = 0
  /-- JD is the scan of the code (R44, R99), so a subset of the offsets that hold 0x5b (R51). -/
  jd : s.jd = scan s.code
  /-- Data memory is in canonical form. -/
  mem : Memory.wf s.mem = true
  /-- pc = 0 and S is empty when phase is not Running (R51). -/
  atRest : s.phase ≠ .running → s.pc = 0 ∧ s.stack = []
  /-- RES.depth is the number of words in RES.stack, at most 1024 (R41). -/
  resDepth : s.res.depth = s.res.stack.length ∧ s.res.stack.length ≤ 1024
  /-- RES.fault_pc is below 2^256 (R41). -/
  faultPc : s.res.faultPc < 2 ^ 256
  /-- RES agrees with the phase. -/
  latch : s.LatchAgrees

/-- The bytes an opcode byte and its immediate take: 1 + n for PUSHn, 1 for every other byte, unknown ones too (R102). -/
def byteLength (op : Byte) : Nat := if 0x60 ≤ op.toNat ∧ op.toNat ≤ 0x7f then 1 + (op.toNat - 0x5f) else 1

/-- `c` is the offset of an instruction when the code is read from offset 0 on, immediates passed over (R99). -/
inductive InstrStart (code : List Byte) : Nat → Prop where
  | entry : InstrStart code 0
  | after {c : Nat} {op : Byte} : InstrStart code c → code[c]? = some op → InstrStart code (c + byteLength op)

/-- Two states agree in everything a run can depend on: all but RES and the diagnostic trace (R364). -/
structure SameRun (s t : State) : Prop where
  params : s.params = t.params
  code : s.code = t.code
  starts : s.starts = t.starts
  gasDraws : s.gasDraws = t.gasDraws
  phase : s.phase = t.phase
  pc : s.pc = t.pc
  stack : s.stack = t.stack
  mem : s.mem = t.mem
  msize : s.msize = t.msize
  jd : s.jd = t.jd

end Sys2Proof.Machine
end

