-- ==== Sys2Proof/Certificates/Slice0/Obligations.lean ====
section
/-! DEFINITION. The statements about EVMFS-core for the provers, from the numbered rules of the spec. `exec i s` is the
instruction after the fetch: s.pc is already past the opcode byte (10_state.md R38). A conclusion `exec i s = .next ...` with
a record update of s says what changes and, by the update, that every other field stays as it was. -/

open Sys2Proof Sys2Proof.Machine

namespace Sys2Proof.Claims

/-- The instruction and its one-byte encoding (R92), both ways. -/
def Encoded (i : Instr) (op : Byte) : Prop :=
  encode i = [op] ∧ ∀ rest, decode (op :: rest) = .ok (i, rest)

/-- With fewer than k words the run ends with Fatal(StackUnderflow), the instruction not applied (R97, R323). -/
def Underflows (i : Instr) (k : Nat) : Prop :=
  ∀ s : State, s.stack.length < k → exec i s = .next (endRun (.fatal .stackUnderflow) s)

/-- An instruction of arity (1, 1) that replaces a = S[0] by r a. -/
def Unary (i : Instr) (op : Byte) (r : Word → Word) : Prop :=
  Encoded i op ∧ Underflows i 1 ∧
  ∀ (s : State) (a : Word) (rest : List Word), s.stack = a :: rest → s.stack.length ≤ 1024 →
    exec i s = .next { s with stack := r a :: rest }

/-- An instruction of arity (2, 1) that replaces a = S[0] and b = S[1] by r a b. -/
def Binary (i : Instr) (op : Byte) (r : Word → Word → Word) : Prop :=
  Encoded i op ∧ Underflows i 2 ∧
  ∀ (s : State) (a b : Word) (rest : List Word), s.stack = a :: b :: rest → s.stack.length ≤ 1024 →
    exec i s = .next { s with stack := r a b :: rest }

/-- An instruction of arity (3, 1) that replaces a = S[0], b = S[1] and c = S[2] by r a b c. -/
def Ternary (i : Instr) (op : Byte) (r : Word → Word → Word → Word) : Prop :=
  Encoded i op ∧ Underflows i 3 ∧
  ∀ (s : State) (a b c : Word) (rest : List Word), s.stack = a :: b :: c :: rest → s.stack.length ≤ 1024 →
    exec i s = .next { s with stack := r a b c :: rest }

/-- An instruction of arity (2, 1) whose result has bit i equal to f a[i] b[i], for i = 0 .. 255. -/
def Bitwise (i : Instr) (op : Byte) (f : Bool → Bool → Bool) : Prop :=
  Encoded i op ∧ Underflows i 2 ∧
  ∀ (s : State) (a b : Word) (rest : List Word), s.stack = a :: b :: rest → s.stack.length ≤ 1024 →
    ∃ r : Word, exec i s = .next { s with stack := r :: rest } ∧
      ∀ k, k < 256 → r.getLsbD k = f (a.getLsbD k) (b.getLsbD k)

/-- `bool(c)` (R12). -/
def truth (c : Prop) [Decidable c] : Word := if c then 1 else 0

/-- `32 * ceil(n / 32)` (R66). -/
def ceil32 (n : Nat) : Nat := 32 * ((n + 31) / 32)

/-- An access of n bytes at addr passes no MEM_LIMIT (R62). -/
def Admitted (s : State) (addr n : Nat) : Prop := ∀ l ∈ s.params.memLimit, addr + n ≤ l

/-- An access of n bytes at addr passes MEM_LIMIT (R62). -/
def PassesLimit (s : State) (addr n : Nat) : Prop := ∃ l ∈ s.params.memLimit, l < addr + n

/-- Byte k of a Word, byte 0 the most significant (R10). -/
def byteAt (v : Word) (k : Nat) : Byte := v.extractLsb' (248 - 8 * k) 8

/-- Part 1 of `pushMembers`. -/
def pushMembersA : List (Nat × Byte × (List Byte → Instr)) :=
  [(1, 0x60, .push1), (2, 0x61, .push2), (3, 0x62, .push3), (4, 0x63, .push4),
   (5, 0x64, .push5), (6, 0x65, .push6), (7, 0x66, .push7), (8, 0x67, .push8)]

/-- Part 2 of `pushMembers`. -/
def pushMembersB : List (Nat × Byte × (List Byte → Instr)) :=
  [(9, 0x68, .push9), (10, 0x69, .push10), (11, 0x6a, .push11), (12, 0x6b, .push12),
   (13, 0x6c, .push13), (14, 0x6d, .push14), (15, 0x6e, .push15), (16, 0x6f, .push16)]

/-- Part 3 of `pushMembers`. -/
def pushMembersC : List (Nat × Byte × (List Byte → Instr)) :=
  [(17, 0x70, .push17), (18, 0x71, .push18), (19, 0x72, .push19), (20, 0x73, .push20),
   (21, 0x74, .push21), (22, 0x75, .push22), (23, 0x76, .push23), (24, 0x77, .push24)]

/-- Part 4 of `pushMembers`. -/
def pushMembersD : List (Nat × Byte × (List Byte → Instr)) :=
  [(25, 0x78, .push25), (26, 0x79, .push26), (27, 0x7a, .push27), (28, 0x7b, .push28),
   (29, 0x7c, .push29), (30, 0x7d, .push30), (31, 0x7e, .push31), (32, 0x7f, .push32)]

/-- PUSH1 .. PUSH32 with n and the opcode byte. -/
def pushMembers : List (Nat × Byte × (List Byte → Instr)) := pushMembersA ++ pushMembersB ++ pushMembersC ++ pushMembersD

/-- Part 1 of `dupMembers`. -/
def dupMembersA : List (Nat × Byte × Instr) :=
  [(1, 0x80, .dup1), (2, 0x81, .dup2), (3, 0x82, .dup3), (4, 0x83, .dup4),
   (5, 0x84, .dup5), (6, 0x85, .dup6), (7, 0x86, .dup7), (8, 0x87, .dup8)]

/-- Part 2 of `dupMembers`. -/
def dupMembersB : List (Nat × Byte × Instr) :=
  [(9, 0x88, .dup9), (10, 0x89, .dup10), (11, 0x8a, .dup11), (12, 0x8b, .dup12),
   (13, 0x8c, .dup13), (14, 0x8d, .dup14), (15, 0x8e, .dup15), (16, 0x8f, .dup16)]

/-- DUP1 .. DUP16 with n and the opcode byte. -/
def dupMembers : List (Nat × Byte × Instr) := dupMembersA ++ dupMembersB

/-- Part 1 of `swapMembers`. -/
def swapMembersA : List (Nat × Byte × Instr) :=
  [(1, 0x90, .swap1), (2, 0x91, .swap2), (3, 0x92, .swap3), (4, 0x93, .swap4),
   (5, 0x94, .swap5), (6, 0x95, .swap6), (7, 0x96, .swap7), (8, 0x97, .swap8)]

/-- Part 2 of `swapMembers`. -/
def swapMembersB : List (Nat × Byte × Instr) :=
  [(9, 0x98, .swap9), (10, 0x99, .swap10), (11, 0x9a, .swap11), (12, 0x9b, .swap12),
   (13, 0x9c, .swap13), (14, 0x9d, .swap14), (15, 0x9e, .swap15), (16, 0x9f, .swap16)]

/-- SWAP1 .. SWAP16 with n and the opcode byte. -/
def swapMembers : List (Nat × Byte × Instr) := swapMembersA ++ swapMembersB

/-- The unknown byte values, as R96 lists them. -/
def Unknown (op : Byte) : Prop :=
  (0x0b ≤ op.toNat ∧ op.toNat ≤ 0x0f) ∨ (0x1e ≤ op.toNat ∧ op.toNat ≤ 0x4f) ∨
  op.toNat = 0x54 ∨ op.toNat = 0x55 ∨ op.toNat = 0x59 ∨ (0x5c ≤ op.toNat ∧ op.toNat ≤ 0x5f) ∨
  (0xa0 ≤ op.toNat ∧ op.toNat ≤ 0xfd) ∨ op.toNat = 0xff

end Sys2Proof.Claims

open Sys2Proof.Claims

/-! ## The ALU: arithmetic -/

/-- R121, R122, R123: ADD, MUL and SUB wrap modulo 2^256; the top is the minuend. -/
def Obligations.AddMulSubWrapModulo : Prop :=
  Binary .add 0x01 (fun a b => BitVec.ofNat 256 (a.toNat + b.toNat)) ∧
  Binary .mul 0x02 (fun a b => BitVec.ofNat 256 (a.toNat * b.toNat)) ∧
  Binary .sub 0x03 (fun a b => BitVec.ofInt 256 (a.toNat - b.toNat : Int))

/-- R124, R126: DIV and MOD are unsigned, and 0 for a zero divisor. -/
def Obligations.DivModAreUnsigned : Prop :=
  Binary .div 0x04 (fun a b => if b = 0 then 0 else BitVec.ofNat 256 (a.toNat / b.toNat)) ∧
  Binary .mod 0x06 (fun a b => if b = 0 then 0 else BitVec.ofNat 256 (a.toNat % b.toNat))

/-- R125: SDIV rounds toward zero; it is 0 for a zero divisor, and MIN_NEG for MIN_NEG by -1 (the wrap of 2^255). -/
def Obligations.SdivTruncatesTowardZero : Prop :=
  Binary .sdiv 0x05 (fun a b => if b = 0 then 0 else BitVec.ofInt 256 (a.toInt.tdiv b.toInt)) ∧
  ∀ (s : State) (rest : List Word), s.stack = Word.minNeg :: Word.maxValue :: rest → s.stack.length ≤ 1024 →
    exec .sdiv s = .next { s with stack := Word.minNeg :: rest }

/-- R127: SMOD has the magnitude `|s(a)| mod |s(b)|` and the sign of the dividend, so that quotient, divisor and remainder
give the dividend back; it is 0 for a zero divisor. -/
def Obligations.SmodHasSignOfDividend : Prop :=
  Binary .smod 0x07 (fun a b => if b = 0 then 0 else BitVec.ofInt 256 (a.toInt.tmod b.toInt)) ∧
  ∀ (s : State) (a b : Word) (rest : List Word), s.stack = a :: b :: rest → s.stack.length ≤ 1024 → b ≠ 0 →
    ∃ r : Word, exec .smod s = .next { s with stack := r :: rest } ∧
      r.toInt.natAbs = a.toInt.natAbs % b.toInt.natAbs ∧
      a.toInt = a.toInt.tdiv b.toInt * b.toInt + r.toInt

/-- R128, R129: ADDMOD and MULMOD reduce the exact sum and product, and are 0 for a zero modulus. -/
def Obligations.AddmodMulmodAreExact : Prop :=
  Ternary .addmod 0x08 (fun a b c => if c = 0 then 0 else BitVec.ofNat 256 ((a.toNat + b.toNat) % c.toNat)) ∧
  Ternary .mulmod 0x09 (fun a b c => if c = 0 then 0 else BitVec.ofNat 256 ((a.toNat * b.toNat) % c.toNat))

/-- R130: EXP is the integer power modulo 2^256, 1 for an exponent of 0. -/
def Obligations.ExpIsPowerModulo : Prop :=
  Binary .exp 0x0a (fun a b => BitVec.ofNat 256 (a.toNat ^ b.toNat))

/-- R15: the word utilities; is_negative is bit 255 and so the sign, flip_sign is `w(~v + 1)` and so negation, is undone by
itself and leaves 0 and MIN_NEG; SUB (opcode 0x03) from 0 gives it (R133). -/
def Obligations.FlipSignNegates : Prop :=
  (∀ v : Word, isNegative v = true ↔ v.getLsbD 255 = true) ∧
  (∀ v : Word, isNegative v = true ↔ v.toInt < 0) ∧
  (∀ v : Word, flipSign v = BitVec.ofNat 256 ((~~~v).toNat + 1)) ∧
  (∀ v : Word, flipSign v = BitVec.ofNat 256 (2 ^ 256 - v.toNat)) ∧
  (∀ v : Word, flipSign v = BitVec.ofInt 256 (-v.toInt)) ∧
  (∀ v : Word, flipSign (flipSign v) = v) ∧
  (∀ (m : SarMode) (x c : Word), alu m 0x03 0 x c = some (flipSign x)) ∧
  flipSign 0 = 0 ∧ flipSign Word.minNeg = Word.minNeg

/-- R132: the quotients and remainders of the table, at every sign combination and at zero, on the ALU unit (opcodes 0x04
to 0x07). -/
def Obligations.DivisionSignTable : Prop :=
  ∀ (m : SarMode) (c : Word),
    (alu m 0x05 7 2 c = some 3 ∧ alu m 0x07 7 2 c = some 1 ∧ alu m 0x04 7 2 c = some 3 ∧ alu m 0x06 7 2 c = some 1) ∧
    (alu m 0x05 (-7) 2 c = some (-3) ∧ alu m 0x07 (-7) 2 c = some (-1) ∧
      alu m 0x04 (-7) 2 c = some (BitVec.ofNat 256 (2 ^ 255 - 4)) ∧ alu m 0x06 (-7) 2 c = some 1) ∧
    (alu m 0x05 7 (-2) c = some (-3) ∧ alu m 0x07 7 (-2) c = some 1 ∧ alu m 0x04 7 (-2) c = some 0 ∧
      alu m 0x06 7 (-2) c = some 7) ∧
    (alu m 0x05 (-7) (-2) c = some 3 ∧ alu m 0x07 (-7) (-2) c = some (-1) ∧ alu m 0x04 (-7) (-2) c = some 0 ∧
      alu m 0x06 (-7) (-2) c = some (BitVec.ofNat 256 (2 ^ 256 - 7))) ∧
    (∀ x : Word, alu m 0x05 x 0 c = some 0 ∧ alu m 0x07 x 0 c = some 0 ∧ alu m 0x04 x 0 c = some 0 ∧
      alu m 0x06 x 0 c = some 0) ∧
    (∀ y : Word, y ≠ 0 → alu m 0x05 0 y c = some 0 ∧ alu m 0x07 0 y c = some 0 ∧ alu m 0x04 0 y c = some 0 ∧
      alu m 0x06 0 y c = some 0) ∧
    (alu m 0x05 Word.minNeg (-1) c = some Word.minNeg ∧ alu m 0x07 Word.minNeg (-1) c = some 0 ∧
      alu m 0x04 Word.minNeg (-1) c = some 0 ∧ alu m 0x06 Word.minNeg (-1) c = some Word.minNeg) ∧
    (alu m 0x05 Word.minNeg 1 c = some Word.minNeg ∧ alu m 0x07 Word.minNeg 1 c = some 0 ∧
      alu m 0x04 Word.minNeg 1 c = some Word.minNeg ∧ alu m 0x06 Word.minNeg 1 c = some 0)

/-! ## The ALU: comparison and logic -/

/-- R151, R152, R155, R156: LT, GT, EQ and ISZERO push the Word 1 or 0. -/
def Obligations.UnsignedComparesPushTruth : Prop :=
  Binary .lt 0x10 (fun a b => truth (a.toNat < b.toNat)) ∧
  Binary .gt 0x11 (fun a b => truth (a.toNat > b.toNat)) ∧
  Binary .eq 0x14 (fun a b => truth (a.toNat = b.toNat)) ∧
  Unary .iszero 0x15 (fun a => truth (a.toNat = 0))

/-- R153, R154: SLT and SGT compare the two's-complement values. -/
def Obligations.SignedComparesFollowSignedValues : Prop :=
  Binary .slt 0x12 (fun a b => truth (a.toInt < b.toInt)) ∧
  Binary .sgt 0x13 (fun a b => truth (a.toInt > b.toInt))

/-- R157, R158, R159, R160: AND, OR, XOR and NOT, bit by bit. -/
def Obligations.BitwiseLogicBitByBit : Prop :=
  Bitwise .and 0x16 (fun x y => x && y) ∧
  Bitwise .or 0x17 (fun x y => x || y) ∧
  Bitwise .xor 0x18 (fun x y => x != y) ∧
  Encoded .not 0x19 ∧ Underflows .not 1 ∧
  ∀ (s : State) (a : Word) (rest : List Word), s.stack = a :: rest → s.stack.length ≤ 1024 →
    ∃ r : Word, exec .not s = .next { s with stack := r :: rest } ∧ ∀ k, k < 256 → r.getLsbD k = !a.getLsbD k

/-- R161: the laws the source states, on the ALU unit (LT 0x10, GT 0x11, SLT 0x12, SGT 0x13, EQ 0x14, ISZERO 0x15, AND 0x16,
OR 0x17, NOT 0x19). -/
def Obligations.SourceComparisonLaws : Prop :=
  ∀ (m : SarMode) (a b c : Word),
    alu m 0x10 a b c = alu m 0x11 b a c ∧
    alu m 0x14 a a c = some 1 ∧ alu m 0x14 a b c = alu m 0x14 b a c ∧
    alu m 0x15 a b c = alu m 0x14 a 0 c ∧
    (alu m 0x19 a b c >>= fun n => alu m 0x19 n b c) = some a ∧
    (alu m 0x19 a b c >>= fun n => alu m 0x16 a n c) = some 0 ∧
    (alu m 0x19 a b c >>= fun n => alu m 0x17 a n c) = some Word.maxValue ∧
    alu m 0x12 Word.maxValue 0 c = some 1 ∧ alu m 0x12 0 Word.maxValue c = some 0 ∧
    alu m 0x13 a b c = alu m 0x12 b a c

/-- R131: the ALU is defined for the opcodes 0x01..0x0a and 0x10..0x1d alone, for every operand; an instruction with such an
opcode replaces its operands by what the ALU gives on S[0], S[1] and S[2], and changes nothing else but BYTE's warning. -/
def Obligations.AluUnitGivesTheResult : Prop :=
  (∀ (m : SarMode) (op : Byte) (a b c : Word), (alu m op a b c).isSome = true ↔
    (0x01 ≤ op.toNat ∧ op.toNat ≤ 0x0a) ∨ (0x10 ≤ op.toNat ∧ op.toNat ≤ 0x1d)) ∧
  ∀ (op : Byte) (i : Instr) (s : State) (r : Word), decode [op] = .ok (i, []) →
    (arity i).1 ≤ s.stack.length → s.stack.length ≤ 1024 →
    alu s.params.sarMode op (s.stack.getD 0 0) (s.stack.getD 1 0) (s.stack.getD 2 0) = some r →
    ∃ d : List DiagEvent, exec i s = .next { s with stack := r :: s.stack.drop (arity i).1, diag := s.diag ++ d } ∧
      (i ≠ .byte → d = [])

/-! ## The ALU: shifts and BYTE -/

/-- R171, R172: SHL and SHR by the whole unsigned amount; 256 or more leaves 0. -/
def Obligations.LogicalShiftsByWholeAmount : Prop :=
  Binary .shl 0x1b (fun sh x => BitVec.ofNat 256 (x.toNat * 2 ^ sh.toNat)) ∧
  Binary .shr 0x1c (fun sh x => BitVec.ofNat 256 (x.toNat / 2 ^ sh.toNat)) ∧
  ∀ (s : State) (sh x : Word) (rest : List Word), s.stack = sh :: x :: rest → s.stack.length ≤ 1024 →
    256 ≤ sh.toNat → exec .shl s = .next { s with stack := 0 :: rest } ∧ exec .shr s = .next { s with stack := 0 :: rest }

/-- R173: SAR under both values of SAR_MODE. -/
def Obligations.SarFollowsItsMode : Prop :=
  Encoded .sar 0x1d ∧ Underflows .sar 2 ∧
  ∀ (s : State) (sh x : Word) (rest : List Word), s.stack = sh :: x :: rest → s.stack.length ≤ 1024 →
    exec .sar s = .next { s with stack :=
      (match s.params.sarMode with
       | .trueAsr => BitVec.ofInt 256 (x.toInt / 2 ^ sh.toNat)
       | .referenceFlip =>
         if x.toInt < 0 then BitVec.ofInt 256 (-((x.toInt.natAbs / 2 ^ sh.toNat : Nat) : Int))
         else BitVec.ofNat 256 (x.toNat / 2 ^ sh.toNat)) :: rest }

/-- R175: on the ALU unit (SAR 0x1d), for a negative x of magnitude m REFERENCE_FLIP gives -floor(m / 2^k) and TRUE_ASR
-ceil(m / 2^k), for k of 256 or more 0 and MAX; the modes differ exactly when x is negative and m mod 2^k is not 0. -/
def Obligations.SarModesDifferExactly : Prop :=
  ∀ (sh x c : Word),
    (x.toInt < 0 →
      (flipSign x).toNat = x.toInt.natAbs ∧ 1 ≤ x.toInt.natAbs ∧ x.toInt.natAbs ≤ 2 ^ 255 ∧
      alu .referenceFlip 0x1d sh x c = some (BitVec.ofInt 256 (-((x.toInt.natAbs / 2 ^ sh.toNat : Nat) : Int))) ∧
      alu .trueAsr 0x1d sh x c =
        some (BitVec.ofInt 256 (-(((x.toInt.natAbs + 2 ^ sh.toNat - 1) / 2 ^ sh.toNat : Nat) : Int))) ∧
      (256 ≤ sh.toNat →
        alu .referenceFlip 0x1d sh x c = some 0 ∧ alu .trueAsr 0x1d sh x c = some Word.maxValue)) ∧
    (alu .trueAsr 0x1d sh x c ≠ alu .referenceFlip 0x1d sh x c ↔
      x.toInt < 0 ∧ x.toInt.natAbs % 2 ^ sh.toNat ≠ 0)

/-- R174: BYTE takes byte i, byte 0 the most significant; an offset of 32 or more pushes 0 and emits the warning. -/
def Obligations.ByteCountsFromMostSignificant : Prop :=
  Encoded .byte 0x1a ∧ Underflows .byte 2 ∧
  ∀ (s : State) (i x : Word) (rest : List Word), s.stack = i :: x :: rest → s.stack.length ≤ 1024 →
    exec .byte s = .next
      (if 32 ≤ i.toNat then
        { s with stack := 0 :: rest, diag := s.diag ++ [⟨.warning, .byteOffsetOutOfRange, s.pc - 1⟩] }
      else { s with stack := BitVec.ofNat 256 (x.toNat / 256 ^ (31 - i.toNat) % 256) :: rest })

/-! ## Data memory -/

/-- R191: MLOAD replaces the offset by the 32 bytes there, the lowest address the most significant, and grows msize; past
MEM_LIMIT it is Fatal(MemoryLimit). -/
def Obligations.MloadReadsBigEndian : Prop :=
  Encoded .mload 0x51 ∧ Underflows .mload 1 ∧
  ∀ (s : State) (off : Word) (rest : List Word), s.stack = off :: rest → s.stack.length ≤ 1024 →
    (Admitted s off.toNat 32 → ∃ v : Word,
      exec .mload s = .next { s with stack := v :: rest, msize := max s.msize (ceil32 (off.toNat + 32)) } ∧
      ∀ j, j < 32 → byteAt v j = Memory.read s.mem (off.toNat + j)) ∧
    (PassesLimit s off.toNat 32 → exec .mload s = .next (endRun (.fatal .memoryLimit) s))

/-- R192: MSTORE writes the 32 bytes of S[1] from the address S[0] on, the most significant first, and no other byte. -/
def Obligations.MstoreWritesBigEndian : Prop :=
  Encoded .mstore 0x52 ∧ Underflows .mstore 2 ∧
  ∀ (s : State) (off v : Word) (rest : List Word), s.stack = off :: v :: rest → s.stack.length ≤ 1024 →
    (Admitted s off.toNat 32 → ∃ m : List Host.Cell,
      exec .mstore s = .next
        { s with stack := rest, mem := m, msize := max s.msize (ceil32 (off.toNat + 32)) } ∧
      (∀ j, j < 32 → Memory.read m (off.toNat + j) = byteAt v j) ∧
      ∀ x, x < off.toNat ∨ off.toNat + 32 ≤ x → Memory.read m x = Memory.read s.mem x) ∧
    (PassesLimit s off.toNat 32 → exec .mstore s = .next (endRun (.fatal .memoryLimit) s))

/-- R193: MSTORE8 writes the low byte of S[1] at the address S[0], and no other byte. -/
def Obligations.MstoreEightWritesLowByte : Prop :=
  Encoded .mstore8 0x53 ∧ Underflows .mstore8 2 ∧
  ∀ (s : State) (off v : Word) (rest : List Word), s.stack = off :: v :: rest → s.stack.length ≤ 1024 →
    (Admitted s off.toNat 1 → ∃ m : List Host.Cell,
      exec .mstore8 s = .next
        { s with stack := rest, mem := m, msize := max s.msize (ceil32 (off.toNat + 1)) } ∧
      Memory.read m off.toNat = v.extractLsb' 0 8 ∧
      ∀ x, x ≠ off.toNat → Memory.read m x = Memory.read s.mem x) ∧
    (PassesLimit s off.toNat 1 → exec .mstore8 s = .next (endRun (.fatal .memoryLimit) s))

/-- R68: what a load sees of an earlier store that overlaps it, byte for byte. -/
def Obligations.OverlappingStoreThenLoad : Prop :=
  (∀ (s : State) (a v b : Word) (rest : List Word), s.stack = a :: v :: b :: rest → s.stack.length ≤ 1024 →
    Admitted s a.toNat 1 → Admitted s b.toNat 32 → b.toNat ≤ a.toNat → a.toNat ≤ b.toNat + 31 →
    ∃ (t u : State) (w : Word), exec .mstore8 s = .next t ∧ exec .mload t = .next u ∧ u.stack = w :: rest ∧
      byteAt w (a.toNat - b.toNat) = v.extractLsb' 0 8) ∧
  (∀ (s : State) (a x b : Word) (rest : List Word) (k : Nat), s.stack = a :: x :: b :: rest →
    s.stack.length ≤ 1024 → Admitted s a.toNat 32 → Admitted s b.toNat 32 → b.toNat = a.toNat + k → 0 < k → k < 32 →
    ∃ (t u : State) (w : Word), exec .mstore s = .next t ∧ exec .mload t = .next u ∧ u.stack = w :: rest ∧
      (∀ j, j < 32 - k → byteAt w j = byteAt x (j + k)) ∧
      ∀ j, j < k → byteAt w (32 - k + j) = Memory.read s.mem (a.toNat + 32 + j))

/-! ## Stack and control flow -/

/-- R200: POP discards the top word. -/
def Obligations.PopDiscardsTop : Prop :=
  Encoded .pop 0x50 ∧ Underflows .pop 1 ∧
  ∀ (s : State) (a : Word) (rest : List Word), s.stack = a :: rest → s.stack.length ≤ 1024 →
    exec .pop s = .next { s with stack := rest }

/-- R201: JUMP goes to a target in JD; any other ends the run with exit code 1, the target kept on the stack. -/
def Obligations.JumpNeedsJumpdest : Prop :=
  Encoded .jump 0x56 ∧ Underflows .jump 1 ∧
  ∀ (s : State) (t : Word) (rest : List Word), s.stack = t :: rest →
    (t.toNat ∈ s.jd → exec .jump s = .next { s with stack := rest, pc := t.toNat }) ∧
    (t.toNat ∉ s.jd → exec .jump s = .next (endRun (.exit 1) s) ∧ (endRun (.exit 1) s).res.stack = t :: rest)

/-- R202: JUMPI jumps when S[1] is not 0, the target then checked; when S[1] is 0 it falls through. -/
def Obligations.JumpiTestsCondition : Prop :=
  Encoded .jumpi 0x57 ∧ Underflows .jumpi 2 ∧
  ∀ (s : State) (t cond : Word) (rest : List Word), s.stack = t :: cond :: rest →
    (cond = 0 → exec .jumpi s = .next { s with stack := rest }) ∧
    (cond ≠ 0 → t.toNat ∈ s.jd → exec .jumpi s = .next { s with stack := rest, pc := t.toNat }) ∧
    (cond ≠ 0 → t.toNat ∉ s.jd →
      exec .jumpi s = .next (endRun (.exit 1) s) ∧ (endRun (.exit 1) s).res.stack = t :: cond :: rest)

/-- R203: PC pushes the offset of its own opcode byte. -/
def Obligations.PcPushesOwnOffset : Prop :=
  Encoded .pc 0x58 ∧
  ∀ (s : State) (ipc : Nat), s.pc = ipc + 1 →
    (s.stack.length < 1024 → exec .pc s = .next { s with stack := BitVec.ofNat 256 ipc :: s.stack }) ∧
    (s.stack.length = 1024 → exec .pc s = .next (endRun (.fatal .stackOverflow) s))

/-- R204: JUMPDEST changes nothing. -/
def Obligations.JumpdestDoesNothing : Prop :=
  Encoded .jumpdest 0x5b ∧ ∀ s : State, exec .jumpdest s = .next s

/-! ## System -/

/-- R221, R223: STOP ends the run with Success, INVALID with Failure, exit code 1; the stack becomes the result. -/
def Obligations.StopAndInvalidEndTheRun : Prop :=
  Encoded .stop 0x00 ∧ Encoded .invalid 0xfe ∧
  ∀ s : State,
    exec .stop s = .next { s with
      res := ⟨true, .success, true, 0, none, 0, s.stack.length, s.stack⟩
      phase := .exited 0, pc := 0, stack := [] } ∧
    exec .invalid s = .next { s with
      res := ⟨true, .failure, false, 1, none, 0, s.stack.length, s.stack⟩
      diag := s.diag ++ [⟨.warning, .nonzeroExit, s.pc - 1⟩]
      phase := .exited 1, pc := 0, stack := [] }

/-- R222: GAS pushes gas_in. That the draws are `Config.gasIn` of a count of the reads is the model's form of the free draw
(log 3); nothing constrains the value. -/
def Obligations.GasPushesFreeDraw : Prop :=
  Encoded .gas 0x5a ∧
  ∀ s : State,
    (s.stack.length < 1024 → exec .gas s = .next
      { s with stack := Config.gasIn s.gasDraws :: s.stack, gasDraws := s.gasDraws + 1 }) ∧
    (s.stack.length = 1024 → exec .gas s = .next (endRun (.fatal .stackOverflow) s))

/-! ## PUSH, DUP, SWAP -/

/-- The meaning of every PUSHn on its immediate bytes: byte 1 is the most significant of n, the upper bits are 0; fewer than
n bytes is Fatal(MalformedPush), whatever the depth; a full stack Fatal(StackOverflow). That the decoded instruction carries
the bytes is the model's form (log 11). -/
def Obligations.PushMeaningOnImmediate : Prop :=
  ∀ n op push, (n, op, push) ∈ pushMembers → ∀ (imm : List Byte) (s : State),
    encode (push imm) = op :: imm ∧
    (imm.length < n → exec (push imm) s = .next (endRun (.fatal .malformedPush) s)) ∧
    (imm.length = n → s.stack.length = 1024 → exec (push imm) s = .next (endRun (.fatal .stackOverflow) s)) ∧
    (imm.length = n → s.stack.length < 1024 → ∃ v : Word,
      exec (push imm) s = .next { s with stack := v :: s.stack, pc := s.pc + n } ∧
      v.toNat < 2 ^ (8 * n) ∧ ∀ j, j < n → imm[j]? = some (v.extractLsb' (8 * (n - 1 - j)) 8))

/-- R94, R230: a step that fetches PUSHn takes the n bytes after the opcode from the code, the first the most significant,
zero-extended, and moves pc past them. -/
def Obligations.PushTakesBytesFromCode : Prop :=
  ∀ n op push, (n, op, push) ∈ pushMembers → ∀ s : State, s.phase = .running → s.code[s.pc]? = some op →
    op.toNat = 0x60 + (n - 1) ∧
    (s.code.length < s.pc + 1 + n →
      step s = .next (endRun (.fatal .malformedPush) { s with pc := s.pc + 1 })) ∧
    (s.pc + 1 + n ≤ s.code.length → s.stack.length = 1024 →
      step s = .next (endRun (.fatal .stackOverflow) { s with pc := s.pc + 1 })) ∧
    (s.pc + 1 + n ≤ s.code.length → s.stack.length < 1024 → ∃ v : Word,
      step s = .next { s with stack := v :: s.stack, pc := s.pc + 1 + n } ∧
      v.toNat < 2 ^ (8 * n) ∧ ∀ j, j < n → s.code[s.pc + 1 + j]? = some (v.extractLsb' (8 * (n - 1 - j)) 8))

/-- R263: DUPn copies S[n-1] onto the top; every old entry moves one place down. -/
def Obligations.DupCopiesEntry : Prop :=
  ∀ n op i, (n, op, i) ∈ dupMembers →
    op.toNat = 0x80 + (n - 1) ∧ Encoded i op ∧ Underflows i n ∧
    ∀ (s : State) (v : Word), s.stack[n - 1]? = some v →
      (s.stack.length < 1024 → exec i s = .next { s with stack := v :: s.stack }) ∧
      (s.stack.length = 1024 → exec i s = .next (endRun (.fatal .stackOverflow) s))

/-- R280: SWAPn exchanges S[0] and S[n] and nothing else; twice in a row it is the identity. -/
def Obligations.SwapExchangesEntries : Prop :=
  ∀ n op i, (n, op, i) ∈ swapMembers →
    op.toNat = 0x90 + (n - 1) ∧ Encoded i op ∧ Underflows i (n + 1) ∧
    ∀ (s : State) (x y : Word), s.stack[0]? = some x → s.stack[n]? = some y →
      ∃ st : List Word, exec i s = .next { s with stack := st } ∧
        st.length = s.stack.length ∧ st[0]? = some y ∧ st[n]? = some x ∧
        (∀ j, j ≠ 0 → j ≠ n → st[j]? = s.stack[j]?) ∧ exec i { s with stack := st } = .next s

/-! ## Decoding and stepping -/

/-- Words written out from the opcode map and the formats decode to the instructions they stand for. -/
def Obligations.SampleBytesDecode : Prop :=
  decode [0x01] = .ok (.add, []) ∧ decode [0x1d, 0x00] = .ok (.sar, [0x00]) ∧ decode [0x53] = .ok (.mstore8, []) ∧
  decode [0x61, 0x5b, 0x5b, 0x5b] = .ok (.push2 [0x5b, 0x5b], [0x5b]) ∧ decode [0x8f] = .ok (.dup16, []) ∧
  decode [0x90] = .ok (.swap1, []) ∧ decode [0xfe] = .ok (.invalid, []) ∧
  decode [0x0c] = .error (.unknownOpcode 0x0c) ∧ decode [] = .error .endOfCode

/-- R93: one step of a Running block; the decoded instruction runs with pc past its opcode byte. -/
def Obligations.StepRunsDecodedInstruction : Prop :=
  ∀ s : State, s.phase = .running →
    (s.code.length ≤ s.pc → step s = .next (endRun (.exit 0) s)) ∧
    (∀ op rest, s.code.drop s.pc = op :: rest → decode (op :: rest) = .error (.unknownOpcode op) →
      step s = .next (endRun (.fatal .unknownOpcode) { s with pc := s.pc + 1 })) ∧
    (∀ i rest, decode (s.code.drop s.pc) = .ok (i, rest) → step s = exec i { s with pc := s.pc + 1 })

/-- R96: exactly the 157 listed byte values are unknown, and fetching one ends the run with Fatal(UnknownOpcode) at its
offset and no other effect. -/
def Obligations.UnknownBytesAreFatal : Prop :=
  (∀ (op : Byte) (rest : List Byte), decode (op :: rest) = .error (.unknownOpcode op) ↔ Unknown op) ∧
  (∀ (op : Byte) (rest : List Byte), ¬ Unknown op → ∃ i rest', decode (op :: rest) = .ok (i, rest')) ∧
  ((List.range 256).filter fun n =>
    match decode [BitVec.ofNat 8 n] with | .ok _ => false | .error _ => true).length = 157 ∧
  ∀ (s : State) (op : Byte), s.phase = .running → s.code[s.pc]? = some op → Unknown op →
    step s = .next { s with
      res := ⟨true, .fatal, false, 0, some .unknownOpcode, s.pc, s.stack.length, s.stack⟩
      diag := s.diag ++ [⟨.error, .fatal, s.pc⟩]
      phase := .fatal .unknownOpcode, pc := 0, stack := [] }

/-- Decoding what the encoder writes gives the instruction back, with every immediate byte, and leaves the bytes after it. -/
def Obligations.DecodeOfEncode : Prop :=
  ∀ (i : Instr) (rest : List Byte), i.wellFormed = true → decode (encode i ++ rest) = .ok (i, rest)

/-- Every byte the decoder takes is in the encoding of what it answers; a term it answers that is not well-formed is a PUSHn
whose immediate the code cuts short. That such a PUSHn is answered, carrying what is left of the code, is the model's choice
of log 11: R94 and R95 do not say what the decoder yields there. -/
def Obligations.EncodeOfDecode : Prop :=
  ∀ (bytes rest : List Byte) (i : Instr), decode bytes = .ok (i, rest) →
    bytes = encode i ++ rest ∧ (i.wellFormed = true ∨ (rest = [] ∧ bytes.length < instrLength i))

/-- R99: the scan records, in rising order, exactly the offsets of JUMPDEST bytes that are instruction starts when the code
is read from offset 0 with PUSH immediates passed over. -/
def Obligations.ScanFindsJumpdests : Prop :=
  ∀ code : List Byte, (scan code).Pairwise (· < ·) ∧
    ∀ t, t ∈ scan code ↔ InstrStart code t ∧ code[t]? = some 0x5b

/-! ## Rules over all instructions -/

/-- Every instruction with fewer words on the stack than its k of R92 ends the run with Fatal(StackUnderflow). -/
def Obligations.EveryInstructionUnderflows : Prop :=
  ∀ (i : Instr) (s : State), s.stack.length < (arity i).1 →
    exec i s = .next (endRun (.fatal .stackUnderflow) s)

/-- Every instruction whose p of R92 would take the depth past 1024 ends the run with Fatal(StackOverflow). -/
def Obligations.EveryInstructionOverflows : Prop :=
  ∀ (i : Instr) (s : State), i.wellFormed = true → (arity i).1 ≤ s.stack.length → s.stack.length ≤ 1024 →
    1024 < s.stack.length - (arity i).1 + (arity i).2 →
    exec i s = .next (endRun (.fatal .stackOverflow) s)

/-- An instruction after which the run goes on has changed the depth by exactly p - k of R92. -/
def Obligations.DepthChangesByArity : Prop :=
  ∀ (i : Instr) (s t : State), s.phase = .running → exec i s = .next t → t.phase = .running →
    (arity i).1 ≤ s.stack.length ∧ t.stack.length = s.stack.length - (arity i).1 + (arity i).2

/-- R32: entries 17 and deeper are never written; an instruction replaces at most the 17 top entries. -/
def Obligations.DeepStackIsUntouched : Prop :=
  ∀ (i : Instr) (s t : State), s.phase = .running → exec i s = .next t → t.phase = .running →
    ∃ (k : Nat) (new : List Word), k ≤ 17 ∧ new.length ≤ 17 ∧ t.stack = new ++ s.stack.drop k

/-- The frame of every instruction: code, parameters, pending starts and JD never change; memory only by MSTORE and MSTORE8,
msize only by the memory instructions, the gas draws only by GAS. -/
def Obligations.FrameOfEveryInstruction : Prop :=
  ∀ (i : Instr) (s t : State), exec i s = .next t →
    t.params = s.params ∧ t.code = s.code ∧ t.starts = s.starts ∧ t.jd = s.jd ∧
    (i ≠ .mstore → i ≠ .mstore8 → ∀ x, Memory.read t.mem x = Memory.read s.mem x) ∧
    (i ≠ .mload → i ≠ .mstore → i ≠ .mstore8 → t.msize = s.msize) ∧
    (i ≠ .gas → t.gasDraws = s.gasDraws)

/-- While the run goes on, only JUMP and JUMPI change pc other than by the length of the instruction, and they only to a
member of JD. -/
def Obligations.OnlyJumpsRedirectPc : Prop :=
  ∀ (i : Instr) (s t : State), s.phase = .running → exec i s = .next t → t.phase = .running →
    (t.pc = s.pc + (instrLength i - 1)) ∨ ((i = .jump ∨ i = .jumpi) ∧ t.pc ∈ s.jd)

/-- R323, R324, R325: an instruction that ends the run applies nothing of itself: what is left is the end of the run from
the state before it, with exit code 0 or 1 or a fatal kind; one that does not leaves RES as it was. -/
def Obligations.EveryEndIsPrecise : Prop :=
  ∀ (i : Instr) (s t : State), s.phase = .running → exec i s = .next t →
    (t.phase = .running ∧ t.res = s.res) ∨
    t = endRun (.exit 0) s ∨ t = endRun (.exit 1) s ∨ ∃ kind, t = endRun (.fatal kind) s

/-- Every instruction answers a next state on every state: nothing is refused and the model never stops on an instruction. -/
def Obligations.EveryInstructionAnswersNext : Prop :=
  ∀ (i : Instr) (s : State), ∃ t, exec i s = .next t

/-- A step is refused only where the block is not Running and the host brings a bytecode longer than CODE_MAX, and then with
that reason (the model's choice of log 6 for the host's duty of R363). -/
def Obligations.OnlyTooLongCodeIsRefused : Prop :=
  ∀ (s : State) (r : Refusal), step s = .refused r ↔
    r = .codeTooLong ∧ s.phase ≠ .running ∧ ∃ code later, s.starts = code :: later ∧ s.params.codeMax < code.length

/-! ## The life of a run -/

/-- R326: what the end of a run latches, emits and resets; data memory, msize and JD stay. The phase it sets is not Running,
the only phase in which an instruction executes. -/
def Obligations.EndOfRunLatchesResult : Prop :=
  ∀ (s : State) (code : Nat) (kind : FatalKind),
    endRun (.exit code) s = { s with
      res := ⟨true, if code = 0 then .success else .failure, decide (code = 0), code, none, 0, s.stack.length, s.stack⟩
      diag := s.diag ++ (if code = 0 then [] else [⟨.warning, .nonzeroExit, s.pc - 1⟩])
      phase := .exited code, pc := 0, stack := [] } ∧
    endRun (.fatal kind) s = { s with
      res := ⟨true, .fatal, false, 0, some kind, s.pc - 1, s.stack.length, s.stack⟩
      diag := s.diag ++ [⟨.error, .fatal, s.pc - 1⟩]
      phase := .fatal kind, pc := 0, stack := [] }

/-- R360: the power-on values. -/
def Obligations.PowerOnValues : Prop :=
  State.reset.stack = [] ∧ State.reset.pc = 0 ∧ State.reset.phase = .idle ∧
  State.reset.res = ⟨false, .success, false, 0, none, 0, 0, []⟩ ∧
  (∀ x, Memory.read State.reset.mem x = 0) ∧ State.reset.msize = 0 ∧ State.reset.jd = []

/-- R361: the start of a run with a bytecode that CODE_MAX allows, in any phase but Running. That the host's starts come from
a list in the state is the model's form of the host's move (log 4). -/
def Obligations.StartOfRunResets : Prop :=
  ∀ (s : State) (code : List Byte) (later : List (List Byte)), s.phase ≠ .running → s.starts = code :: later →
    code.length ≤ s.params.codeMax →
    step s = .next { s with
      starts := later, code := code, mem := [], msize := 0, stack := [], pc := 0, jd := scan code
      res := { s.res with valid := false }, phase := .running }

/-- With no start pending a block that is not Running waits, all state surviving (the model's choice, log 5). -/
def Obligations.IdleBlockWaits : Prop :=
  ∀ s : State, s.phase ≠ .running → s.starts = [] → step s = .next s

/-- busy and done of R362. -/
def Obligations.BusyAndDoneFollowPhase : Prop :=
  ∀ s : State, (s.busy = true ↔ s.phase = .running) ∧
    (s.done = true ↔ (∃ code, s.phase = .exited code) ∨ ∃ kind, s.phase = .fatal kind)

/-- msize never decreases within a run. -/
def Obligations.MsizeNeverDecreasesInRun : Prop :=
  ∀ s t : State, s.phase = .running → step s = .next t → s.msize ≤ t.msize

/-- The invariant holds at power-on. That JD is the scan of the code and L at most CODE_MAX there rests on the empty code
store at reset, the model's choice of log 1 (R45 gives it no reset value); that the parameters are in their ranges, on the form
of log 2. -/
def Obligations.InvariantAtPowerOn : Prop := State.reset.Inv

/-- R51 and what the model adds to it: every step keeps the invariant, from every state that meets it. That a start keeps L at
most CODE_MAX rests on the refusal of log 6; that a code and starts stand in the state, on logs 1 and 4. -/
def Obligations.StepKeepsInvariant : Prop :=
  ∀ s t : State, s.Inv → step s = .next t → t.Inv

/-- A step does not depend on RES or on the diagnostic trace, and a run that ends latches the same result. What a step outside
a run does is the model's form of logs 4, 5 and 6. -/
def Obligations.StepIgnoresOldResult : Prop :=
  ∀ s t : State, SameRun s t →
    match step s, step t with
    | .next s', .next t' => SameRun s' t' ∧ (s.phase = .running → s'.phase ≠ .running → s'.res = t'.res)
    | .refused r, .refused r' => r = r'
    | _, _ => False

/-- Runs leave no residue: two blocks with the same parameters, the same pending starts and the same gas draws to come run
alike from their next start on, whatever earlier runs left in their stack, pc, memory, msize, JD, code and RES, and end
every run with the same RES. That the starts are a list in the state, and what a step outside a run does, is the model's form
of logs 4, 5 and 6; that the gas draws are counted, that of log 3. -/
def Obligations.RunsLeaveNoResidue : Prop :=
  ∀ (s t : State) (k : Nat), s.phase ≠ .running → t.phase ≠ .running → s.params = t.params → s.starts = t.starts →
    s.starts ≠ [] → s.gasDraws = t.gasDraws →
    match Host.Core.run Sys2Proof.core (k + 1) s, Host.Core.run Sys2Proof.core (k + 1) t with
    | .next s', .next t' => SameRun s' t' ∧ (s'.done = true → s'.res = t'.res)
    | .refused r, .refused r' => r = r'
    | _, _ => False

/-! ## The step and its arguments -/

/-- After the end of a run no further instruction executes: the next step is that of a block that waits for its host. What
such a step does is the model's form: the host's starts a list (log 4), waiting a step that changes nothing (log 5), a
bytecode longer than CODE_MAX refused (log 6). -/
def Obligations.EndedRunWaitsForStart : Prop :=
  ∀ (s : State) (e : RunEnd), step (endRun e s) = awaitStart (endRun e s)

/-- R50: every instruction, and every step of a Running block, is one function of the inputs and of the block, the inputs its
arguments and the block's next state and outputs its answer; whatever such a function answers, parameters, code and starts
stay. That they stand around the block in the host's closed system is the model's form of log 1. -/
def Obligations.StepTakesInputsAsArguments : Prop :=
  (∀ i : Instr, ∃ f : Inputs → Block → Reaction, ∀ s : State, exec i s = perform f s) ∧
  (∃ f : Inputs → Block → Reaction, ∀ s : State, s.phase = .running → step s = perform f s) ∧
  ∀ (f : Inputs → Block → Reaction) (s t : State), perform f s = .next t →
    t.toBlock = (f ⟨s.params, s.code, Config.gasIn s.gasDraws⟩ s.toBlock).block ∧
    t.params = s.params ∧ t.code = s.code ∧ t.starts = s.starts
end

