-- ==== Sys2Proof/Laws/State.lean ====
section
/-! SUPPORT. What each named update of the block does to each field, and what the system holds after a reaction of its
block, so that no proof unfolds a record update. -/

namespace Sys2Proof.Machine

variable (b : Block) (s : State) (r : Reaction)

@[simp] theorem Block.replaceTop_phase (k : Nat) (results : List Word) : (b.replaceTop k results).phase = b.phase := rfl
@[simp] theorem Block.replaceTop_pc (k : Nat) (results : List Word) : (b.replaceTop k results).pc = b.pc := rfl
@[simp] theorem Block.replaceTop_stack (k : Nat) (results : List Word) : (b.replaceTop k results).stack = results ++ b.stack.drop k := rfl
@[simp] theorem Block.replaceTop_mem (k : Nat) (results : List Word) : (b.replaceTop k results).mem = b.mem := rfl
@[simp] theorem Block.replaceTop_msize (k : Nat) (results : List Word) : (b.replaceTop k results).msize = b.msize := rfl
@[simp] theorem Block.replaceTop_jd (k : Nat) (results : List Word) : (b.replaceTop k results).jd = b.jd := rfl
@[simp] theorem Block.replaceTop_res (k : Nat) (results : List Word) : (b.replaceTop k results).res = b.res := rfl

@[simp] theorem Block.exchange_phase (n : Nat) : (b.exchange n).phase = b.phase := rfl
@[simp] theorem Block.exchange_pc (n : Nat) : (b.exchange n).pc = b.pc := rfl
@[simp] theorem Block.exchange_stack (n : Nat) : (b.exchange n).stack = (b.stack.set 0 (b.peek n)).set n (b.peek 0) := rfl
@[simp] theorem Block.exchange_mem (n : Nat) : (b.exchange n).mem = b.mem := rfl
@[simp] theorem Block.exchange_msize (n : Nat) : (b.exchange n).msize = b.msize := rfl
@[simp] theorem Block.exchange_jd (n : Nat) : (b.exchange n).jd = b.jd := rfl
@[simp] theorem Block.exchange_res (n : Nat) : (b.exchange n).res = b.res := rfl

@[simp] theorem Block.setPc_phase (t : Nat) : (b.setPc t).phase = b.phase := rfl
@[simp] theorem Block.setPc_pc (t : Nat) : (b.setPc t).pc = t := rfl
@[simp] theorem Block.setPc_stack (t : Nat) : (b.setPc t).stack = b.stack := rfl
@[simp] theorem Block.setPc_mem (t : Nat) : (b.setPc t).mem = b.mem := rfl
@[simp] theorem Block.setPc_msize (t : Nat) : (b.setPc t).msize = b.msize := rfl
@[simp] theorem Block.setPc_jd (t : Nat) : (b.setPc t).jd = b.jd := rfl
@[simp] theorem Block.setPc_res (t : Nat) : (b.setPc t).res = b.res := rfl

@[simp] theorem Block.touch_phase (addr n : Nat) : (b.touch addr n).phase = b.phase := rfl
@[simp] theorem Block.touch_pc (addr n : Nat) : (b.touch addr n).pc = b.pc := rfl
@[simp] theorem Block.touch_stack (addr n : Nat) : (b.touch addr n).stack = b.stack := rfl
@[simp] theorem Block.touch_mem (addr n : Nat) : (b.touch addr n).mem = b.mem := rfl
@[simp] theorem Block.touch_msize (addr n : Nat) : (b.touch addr n).msize = extent b.msize addr n := rfl
@[simp] theorem Block.touch_jd (addr n : Nat) : (b.touch addr n).jd = b.jd := rfl
@[simp] theorem Block.touch_res (addr n : Nat) : (b.touch addr n).res = b.res := rfl

@[simp] theorem Block.store_phase (addr n : Nat) (v : Word) : (b.store addr n v).phase = b.phase := rfl
@[simp] theorem Block.store_pc (addr n : Nat) (v : Word) : (b.store addr n v).pc = b.pc := rfl
@[simp] theorem Block.store_stack (addr n : Nat) (v : Word) : (b.store addr n v).stack = b.stack := rfl
@[simp] theorem Block.store_mem (addr n : Nat) (v : Word) : (b.store addr n v).mem = memWrite b.mem addr n v := rfl
@[simp] theorem Block.store_msize (addr n : Nat) (v : Word) : (b.store addr n v).msize = extent b.msize addr n := rfl
@[simp] theorem Block.store_jd (addr n : Nat) (v : Word) : (b.store addr n v).jd = b.jd := rfl
@[simp] theorem Block.store_res (addr n : Nat) (v : Word) : (b.store addr n v).res = b.res := rfl

@[simp] theorem Block.start_phase (bytes : List Byte) : (b.start bytes).phase = .running := rfl
@[simp] theorem Block.start_pc (bytes : List Byte) : (b.start bytes).pc = 0 := rfl
@[simp] theorem Block.start_stack (bytes : List Byte) : (b.start bytes).stack = [] := rfl
@[simp] theorem Block.start_mem (bytes : List Byte) : (b.start bytes).mem = [] := rfl
@[simp] theorem Block.start_msize (bytes : List Byte) : (b.start bytes).msize = 0 := rfl
@[simp] theorem Block.start_jd (bytes : List Byte) : (b.start bytes).jd = scan bytes := rfl
@[simp] theorem Block.start_res (bytes : List Byte) : (b.start bytes).res = { b.res with valid := false } := rfl

@[simp] theorem Block.setPc_peek (t i : Nat) : (b.setPc t).peek i = b.peek i := rfl
@[simp] theorem Block.setPc_depth (t : Nat) : (b.setPc t).depth = b.depth := rfl

/-! ## Reactions -/

@[simp] theorem goOn_block : (goOn b).block = b := rfl
@[simp] theorem goOn_event : (goOn b).event = none := rfl
@[simp] theorem goOn_readsGas : (goOn b).readsGas = false := rfl

@[simp] theorem finish_block (e : RunEnd) :
    (finish e b).block = { b with res := endResult e b, phase := endPhase e, pc := 0, stack := [] } := rfl
@[simp] theorem finish_event (e : RunEnd) : (finish e b).event = endEvent e b := rfl
@[simp] theorem finish_readsGas (e : RunEnd) : (finish e b).readsGas = false := rfl

/-! ## The system after a reaction -/

@[simp] theorem State.after_phase : (s.after r).phase = r.block.phase := rfl
@[simp] theorem State.after_pc : (s.after r).pc = r.block.pc := rfl
@[simp] theorem State.after_stack : (s.after r).stack = r.block.stack := rfl
@[simp] theorem State.after_mem : (s.after r).mem = r.block.mem := rfl
@[simp] theorem State.after_msize : (s.after r).msize = r.block.msize := rfl
@[simp] theorem State.after_jd : (s.after r).jd = r.block.jd := rfl
@[simp] theorem State.after_res : (s.after r).res = r.block.res := rfl
@[simp] theorem State.after_params : (s.after r).params = s.params := rfl
@[simp] theorem State.after_code : (s.after r).code = s.code := rfl
@[simp] theorem State.after_starts : (s.after r).starts = s.starts := rfl
@[simp] theorem State.after_gasDraws :
    (s.after r).gasDraws = if r.readsGas then s.gasDraws + 1 else s.gasDraws := by
  cases h : r.readsGas <;> simp [State.after, h]

@[simp] theorem State.after_diag : (s.after r).diag = s.diag ++ r.event.toList := by
  cases h : r.event <;> simp [State.after, h]

/-- Where nothing goes out of the block, only the block changes. -/
@[simp] theorem State.after_goOn : s.after (goOn b) = { s with toBlock := b } := rfl

/-- Where the block ends the run, the system is that of `endRun`. -/
theorem State.after_finish (e : RunEnd) : s.after (finish e s.toBlock) = endRun e s := rfl

/-! ## The end and the start of a run -/

@[simp] theorem endRun_params (e : RunEnd) : (endRun e s).params = s.params := rfl
@[simp] theorem endRun_code (e : RunEnd) : (endRun e s).code = s.code := rfl
@[simp] theorem endRun_starts (e : RunEnd) : (endRun e s).starts = s.starts := rfl
@[simp] theorem endRun_gasDraws (e : RunEnd) : (endRun e s).gasDraws = s.gasDraws := rfl
@[simp] theorem endRun_phase (e : RunEnd) : (endRun e s).phase = endPhase e := rfl
@[simp] theorem endRun_pc (e : RunEnd) : (endRun e s).pc = 0 := rfl
@[simp] theorem endRun_stack (e : RunEnd) : (endRun e s).stack = [] := rfl
@[simp] theorem endRun_mem (e : RunEnd) : (endRun e s).mem = s.mem := rfl
@[simp] theorem endRun_msize (e : RunEnd) : (endRun e s).msize = s.msize := rfl
@[simp] theorem endRun_jd (e : RunEnd) : (endRun e s).jd = s.jd := rfl
@[simp] theorem endRun_res (e : RunEnd) : (endRun e s).res = endResult e s.toBlock := rfl
@[simp] theorem endRun_diag (e : RunEnd) : (endRun e s).diag = s.diag ++ (endEvent e s.toBlock).toList := State.after_diag _ _

@[simp] theorem beginRun_params (bytes : List Byte) : (beginRun bytes s).params = s.params := rfl
@[simp] theorem beginRun_code (bytes : List Byte) : (beginRun bytes s).code = bytes := rfl
@[simp] theorem beginRun_starts (bytes : List Byte) : (beginRun bytes s).starts = s.starts := rfl
@[simp] theorem beginRun_gasDraws (bytes : List Byte) : (beginRun bytes s).gasDraws = s.gasDraws := rfl
@[simp] theorem beginRun_diag (bytes : List Byte) : (beginRun bytes s).diag = s.diag := rfl
@[simp] theorem beginRun_phase (bytes : List Byte) : (beginRun bytes s).phase = .running := rfl
@[simp] theorem beginRun_pc (bytes : List Byte) : (beginRun bytes s).pc = 0 := rfl
@[simp] theorem beginRun_stack (bytes : List Byte) : (beginRun bytes s).stack = [] := rfl
@[simp] theorem beginRun_mem (bytes : List Byte) : (beginRun bytes s).mem = [] := rfl
@[simp] theorem beginRun_msize (bytes : List Byte) : (beginRun bytes s).msize = 0 := rfl
@[simp] theorem beginRun_jd (bytes : List Byte) : (beginRun bytes s).jd = scan bytes := rfl
@[simp] theorem beginRun_res (bytes : List Byte) : (beginRun bytes s).res = { s.res with valid := false } := rfl

/-- BYTE's warning, in terms of its offset. -/
theorem byteWarning_eq : byteWarning b =
    if 32 ≤ (b.peek 0).toNat then some ⟨.warning, .byteOffsetOutOfRange, b.pc - 1⟩ else none := by
  simp [byteWarning, byteOutOfRange, Block.report, Block.ipc]

end Sys2Proof.Machine
end

