-- ==== Sys2Proof/Laws/Memory.lean ====
section
/-! SUPPORT. The laws of data memory: what a read gives after a write, and that every memory operation keeps the canonical
form (addresses strictly rising, no byte listed that an unlisted address reads as). -/

namespace Sys2Proof.Machine

@[simp] theorem Memory.read_nil (x : Nat) : Memory.read [] x = 0 := rfl

/-! ## Reads -/

theorem Memory.read_erase (m : List Host.Cell) (x y : Nat) :
    Memory.read (Memory.erase m x) y = if y = x then 0 else Memory.read m y := by
  induction m with
  | nil => simp [Memory.erase]
  | cons c rest ih =>
    obtain ⟨a, b⟩ := c
    simp only [Memory.erase] at ih
    by_cases hax : a = x <;> by_cases hay : a = y <;> simp_all [Memory.erase, Memory.read]

theorem Memory.read_insert (m : List Host.Cell) (x y : Nat) (v : Byte) (hx : ∀ c ∈ m, c.1 ≠ x) :
    Memory.read (Memory.insert m x v) y = if y = x then v else Memory.read m y := by
  induction m with
  | nil => simp [Memory.insert, Memory.read, Memory.unwritten, eq_comm]
  | cons c rest ih =>
    obtain ⟨a, b⟩ := c
    have hax : a ≠ x := hx (a, b) (by simp)
    have ih := ih fun c hc => hx c (by simp [hc])
    unfold Memory.insert
    by_cases hlt : x < a
    · by_cases hy : y = x
      · simp [hlt, hy, Memory.read]
      · have : x ≠ y := fun h => hy h.symm
        simp [hlt, hy, this, Memory.read]
    · rw [if_neg hlt]
      by_cases hay : a = y
      · have : y ≠ x := fun h => hax (hay.trans h)
        simp [hay, this, Memory.read]
      · simp [hay, ih, Memory.read]

/-- A read after a write: the byte written at its address, every other address as before. -/
theorem Memory.read_write (m : List Host.Cell) (x y : Nat) (v : Byte) :
    Memory.read (Memory.write m x v) y = if y = x then v else Memory.read m y := by
  unfold Memory.write
  split
  · rename_i hv; simp [Memory.read_erase, hv, Memory.unwritten]
  · rw [Memory.read_insert _ _ _ _ (by simp [Memory.erase]), Memory.read_erase]
    split <;> rfl

theorem Memory.read_writeBytes_other (bytes : List Byte) (m : List Host.Cell) (addr x : Nat)
    (h : x < addr ∨ addr + bytes.length ≤ x) :
    Memory.read (Memory.writeBytes m addr bytes) x = Memory.read m x := by
  induction bytes generalizing m addr with
  | nil => rfl
  | cons b rest ih =>
    simp only [List.length_cons] at h
    simp only [Memory.writeBytes]
    rw [ih _ _ (by omega), Memory.read_write]
    simp [show x ≠ addr by omega]

/-! ## The canonical form -/

theorem Memory.wfFrom_mono {lo lo' : Nat} (h : lo' ≤ lo) (m : List Host.Cell) (hm : Memory.wfFrom lo m = true) :
    Memory.wfFrom lo' m = true := by
  cases m with
  | nil => rfl
  | cons c rest =>
    obtain ⟨a, b⟩ := c
    simp only [Memory.wfFrom, Bool.and_eq_true, decide_eq_true_eq] at hm ⊢
    exact ⟨⟨by omega, hm.1.2⟩, hm.2⟩

theorem Memory.wfFrom_erase (m : List Host.Cell) (x lo : Nat) (h : Memory.wfFrom lo m = true) :
    Memory.wfFrom lo (Memory.erase m x) = true := by
  induction m generalizing lo with
  | nil => rfl
  | cons c rest ih =>
    obtain ⟨a, b⟩ := c
    simp only [Memory.wfFrom, Bool.and_eq_true, decide_eq_true_eq] at h
    have hr := ih _ h.2
    by_cases hax : a = x
    · simpa [Memory.erase, hax] using Memory.wfFrom_mono (by omega) _ hr
    · simp only [Memory.erase, ne_eq, bne_iff_ne, hax, not_false_eq_true, List.filter_cons_of_pos] at hr ⊢
      simp only [Memory.wfFrom, Bool.and_eq_true, decide_eq_true_eq]
      exact ⟨h.1, hr⟩

theorem Memory.wfFrom_insert (m : List Host.Cell) (x lo : Nat) (v : Byte) (hlo : lo ≤ x) (hv : v ≠ 0)
    (hx : ∀ c ∈ m, c.1 ≠ x) (h : Memory.wfFrom lo m = true) :
    Memory.wfFrom lo (Memory.insert m x v) = true := by
  induction m generalizing lo with
  | nil => simpa [Memory.insert, Memory.wfFrom, hlo] using hv
  | cons c rest ih =>
    obtain ⟨a, b⟩ := c
    have hax : a ≠ x := hx (a, b) (by simp)
    simp only [Memory.wfFrom, Bool.and_eq_true, decide_eq_true_eq] at h
    unfold Memory.insert
    split
    · simp only [Memory.wfFrom, Bool.and_eq_true, decide_eq_true_eq]
      exact ⟨⟨hlo, hv⟩, ⟨by omega, h.1.2⟩, h.2⟩
    · simp only [Memory.wfFrom, Bool.and_eq_true, decide_eq_true_eq]
      exact ⟨h.1, ih _ (by omega) (fun c hc => hx c (by simp [hc])) h.2⟩

/-- Writing one byte keeps the canonical form. -/
theorem Memory.wf_write (m : List Host.Cell) (x : Nat) (v : Byte) (h : Memory.wf m = true) :
    Memory.wf (Memory.write m x v) = true := by
  unfold Memory.write
  split
  · exact Memory.wfFrom_erase _ _ _ h
  · rename_i hv
    exact Memory.wfFrom_insert _ _ _ _ (Nat.zero_le _) hv (by simp [Memory.erase]) (Memory.wfFrom_erase _ _ _ h)

theorem Memory.wf_writeBytes (bytes : List Byte) (m : List Host.Cell) (addr : Nat) (h : Memory.wf m = true) :
    Memory.wf (Memory.writeBytes m addr bytes) = true := by
  induction bytes generalizing m addr with
  | nil => exact h
  | cons b rest ih => exact ih _ _ (Memory.wf_write _ _ _ h)

/-- Storing a value keeps the canonical form. -/
theorem memWrite_wf (m : List Host.Cell) (addr n : Nat) (v : Word) (h : Memory.wf m = true) :
    Memory.wf (memWrite m addr n v) = true := Memory.wf_writeBytes _ _ _ h

/-- The memory at power-on is in canonical form. -/
theorem reset_mem_wf : Memory.wf State.reset.mem = true := rfl

/-! ## The limit and the extent -/

theorem memAdmits_iff (limit : Option Nat) (addr n : Nat) :
    memAdmits limit addr n = true ↔ ∀ l ∈ limit, addr + n ≤ l := by
  cases limit <;> simp [memAdmits]

theorem extent_multiple (msize addr n : Nat) (h : msize % 32 = 0) : extent msize addr n % 32 = 0 := by
  unfold extent; omega

theorem extent_grows (msize addr n : Nat) : msize ≤ extent msize addr n := by unfold extent; omega

end Sys2Proof.Machine
end

