-- ==== Sys2Proof/Laws/Bytes.lean ====
section
/-! SUPPORT. The bytes of a Word: what `wordOfBytes` puts together comes apart again, byte for byte (spec 20_memory.md R63,
R64; 30_encoding.md R94), and what a read gives inside and outside a store. -/

namespace Sys2Proof.Machine

/-- The value that bytes have after the value `acc`, the first byte the most significant. -/
theorem bytes_value_acc (bytes : List Byte) (acc : Nat) :
    bytes.foldl (fun acc b => acc * 256 + b.toNat) acc =
      acc * 256 ^ bytes.length + bytes.foldl (fun acc b => acc * 256 + b.toNat) 0 := by
  induction bytes generalizing acc with
  | nil => simp
  | cons b rest ih =>
    simp only [List.foldl_cons, List.length_cons]
    rw [ih, ih (0 * 256 + b.toNat)]
    ring

theorem bytes_value_lt (bytes : List Byte) :
    bytes.foldl (fun acc b => acc * 256 + b.toNat) 0 < 256 ^ bytes.length := by
  induction bytes with
  | nil => simp
  | cons b rest ih =>
    simp only [List.foldl_cons, List.length_cons]
    rw [bytes_value_acc, pow_succ]
    have := b.isLt
    have : (0 * 256 + b.toNat) * 256 ^ rest.length ≤ 255 * 256 ^ rest.length := Nat.mul_le_mul_right _ (by omega)
    omega

theorem bytes_value_byte (bytes : List Byte) (j : Nat) (hj : j < bytes.length) :
    bytes.foldl (fun acc b => acc * 256 + b.toNat) 0 / 256 ^ (bytes.length - 1 - j) % 256 = (bytes[j]).toNat := by
  induction bytes generalizing j with
  | nil => simp at hj
  | cons b rest ih =>
    simp only [List.length_cons] at hj
    simp only [List.foldl_cons, List.length_cons]
    rw [bytes_value_acc]
    have hlt := bytes_value_lt rest
    have hb := b.isLt
    cases j with
    | zero =>
      simp only [Nat.zero_mul, Nat.zero_add, Nat.add_sub_cancel, Nat.sub_zero, List.getElem_cons_zero]
      rw [Nat.add_comm, Nat.add_mul_div_right _ _ (by positivity), Nat.div_eq_of_lt hlt]
      omega
    | succ j =>
      have hj' : j < rest.length := by omega
      rw [show rest.length + 1 - 1 - (j + 1) = rest.length - 1 - j by omega, List.getElem_cons_succ, ← ih j hj']
      have : 256 ^ rest.length = 256 ^ (rest.length - 1 - j) * (256 * 256 ^ j) := by
        rw [← pow_succ', ← pow_add]
        congr 1
        omega
      rw [this, show (0 * 256 + b.toNat) * (256 ^ (rest.length - 1 - j) * (256 * 256 ^ j)) =
        256 ^ (rest.length - 1 - j) * (256 * ((0 * 256 + b.toNat) * 256 ^ j)) by ring]
      rw [Nat.mul_add_div (by positivity), Nat.mul_add_mod]

/-- Up to 32 bytes fit a Word: nothing of their value is lost. -/
theorem wordOfBytes_toNat (bytes : List Byte) (h : bytes.length ≤ 32) :
    (wordOfBytes bytes).toNat = bytes.foldl (fun acc b => acc * 256 + b.toNat) 0 := by
  have hv := bytes_value_lt bytes
  have hp : (256 : Nat) ^ bytes.length ≤ 256 ^ 32 := Nat.pow_le_pow_right (by omega) h
  rw [wordOfBytes, BitVec.toNat_ofNat, Nat.mod_eq_of_lt]
  calc _ < 256 ^ bytes.length := hv
    _ ≤ 256 ^ 32 := hp
    _ = 2 ^ 256 := by norm_num

/-- The bits above the bytes are 0. -/
theorem wordOfBytes_lt (bytes : List Byte) (h : bytes.length ≤ 32) :
    (wordOfBytes bytes).toNat < 2 ^ (8 * bytes.length) := by
  rw [wordOfBytes_toNat bytes h, pow_mul]
  exact bytes_value_lt bytes

/-- Byte j of n, the first the most significant. -/
theorem wordOfBytes_byte (bytes : List Byte) (h : bytes.length ≤ 32) (j : Nat) (hj : j < bytes.length) :
    (wordOfBytes bytes).extractLsb' (8 * (bytes.length - 1 - j)) 8 = bytes[j] := by
  apply BitVec.eq_of_toNat_eq
  rw [BitVec.extractLsb'_toNat, wordOfBytes_toNat bytes h, Nat.shiftRight_eq_div_pow, pow_mul]
  exact bytes_value_byte bytes j hj

/-- A load of 32 bytes, byte for byte. -/
theorem memRead_byte (m : List Host.Cell) (addr j : Nat) (hj : j < 32) :
    (memRead m addr 32).extractLsb' (8 * (31 - j)) 8 = Memory.read m (addr + j) := by
  have hl : (Memory.readBytes m addr 32).length = 32 := by simp [Memory.readBytes]
  have := wordOfBytes_byte (Memory.readBytes m addr 32) (by omega) j (by omega)
  rw [show 8 * (31 - j) = 8 * ((Memory.readBytes m addr 32).length - 1 - j) by omega, memRead, this]
  simp [Memory.readBytes]

theorem Memory.read_writeBytes_same (bytes : List Byte) (m : List Host.Cell) (addr j : Nat) (hj : j < bytes.length) :
    Memory.read (Memory.writeBytes m addr bytes) (addr + j) = bytes[j] := by
  induction bytes generalizing m addr j with
  | nil => simp at hj
  | cons b rest ih =>
    simp only [Memory.writeBytes]
    cases j with
    | zero =>
      rw [Memory.read_writeBytes_other _ _ _ _ (by omega), Memory.read_write]
      simp
    | succ j =>
      rw [show addr + (j + 1) = addr + 1 + j by omega, ih _ _ _ (by simpa using hj)]
      simp

/-- A read inside a store of n bytes gives the stored byte. -/
theorem memWrite_inside (m : List Host.Cell) (addr n j : Nat) (v : Word) (hj : j < n) :
    Memory.read (memWrite m addr n v) (addr + j) = v.extractLsb' (8 * (n - 1 - j)) 8 := by
  rw [memWrite, Memory.read_writeBytes_same _ _ _ _ (by simpa [bytesOfWord] using hj)]
  simp [bytesOfWord]

/-- A read outside a store of n bytes gives what it gave before. -/
theorem memWrite_outside (m : List Host.Cell) (addr n x : Nat) (v : Word) (hx : x < addr ∨ addr + n ≤ x) :
    Memory.read (memWrite m addr n v) x = Memory.read m x := by
  rw [memWrite, Memory.read_writeBytes_other _ _ _ _ (by simpa [bytesOfWord] using hx)]

end Sys2Proof.Machine
end

