-- ==== Sys2Proof/Laws/Ops.lean ====
section
/-! SUPPORT. One lemma per shared operation that says once everything it can do. -/

namespace Sys2Proof.Machine

variable {s : State} {b : Block}

/-! ## The step and its arguments -/

/-- What a performed step stores where the run goes on and nothing goes out of the block. -/
theorem perform_goOn (f : Inputs → Block → Reaction) (b' : Block) (h : f s.inputs s.toBlock = goOn b') :
    perform f s = .next { s with toBlock := b' } := by
  rw [perform, h]; rfl

/-- What a performed step stores where it ends the run. -/
theorem perform_finish (f : Inputs → Block → Reaction) (e : RunEnd) (h : f s.inputs s.toBlock = finish e s.toBlock) :
    perform f s = .next (endRun e s) := by
  rw [perform, h]; rfl

/-! ## Stack operands -/

/-- The stack, split where an instruction of k operands takes them. -/
theorem peek_cons (a : Word) (rest : List Word) (h : b.stack = a :: rest) : b.peek 0 = a := by
  simp [Block.peek, h]

theorem peek_cons_cons (a c : Word) (rest : List Word) (h : b.stack = a :: c :: rest) : b.peek 1 = c := by
  simp [Block.peek, h]

theorem peek_eq_getElem (i : Nat) (h : i < b.stack.length) : b.peek i = b.stack[i] := by
  simp [Block.peek, h]

theorem standard_underflow (k p : Nat) (body : Block → Reaction) (h : b.stack.length < k) :
    standard k p body b = finish (.fatal .stackUnderflow) b := by
  simp [standard, Block.depth, h, raise]

theorem standard_overflow (k p : Nat) (body : Block → Reaction) (h : k ≤ b.stack.length)
    (ho : 1024 < b.stack.length - k + p) :
    standard k p body b = finish (.fatal .stackOverflow) b := by
  simp [standard, Block.depth, stackMax, Nat.not_lt.mpr h, ho, raise]

theorem standard_run (k p : Nat) (body : Block → Reaction) (h : k ≤ b.stack.length)
    (ho : b.stack.length - k + p ≤ 1024) : standard k p body b = body b := by
  simp [standard, Block.depth, stackMax, Nat.not_lt.mpr h, Nat.not_lt.mpr ho]

/-- Everything the standard sequencing can do. -/
theorem standard_cases (k p : Nat) (body : Block → Reaction) (b : Block) :
    (b.stack.length < k ∧ standard k p body b = finish (.fatal .stackUnderflow) b) ∨
    (k ≤ b.stack.length ∧ 1024 < b.stack.length - k + p ∧
      standard k p body b = finish (.fatal .stackOverflow) b) ∨
    (k ≤ b.stack.length ∧ b.stack.length - k + p ≤ 1024 ∧ standard k p body b = body b) := by
  rcases Nat.lt_or_ge b.stack.length k with h | h
  · exact .inl ⟨h, standard_underflow k p body h⟩
  · rcases Nat.lt_or_ge 1024 (b.stack.length - k + p) with ho | ho
    · exact .inr (.inl ⟨h, ho, standard_overflow k p body h ho⟩)
    · exact .inr (.inr ⟨h, ho, standard_run k p body h ho⟩)

/-- Everything an access to data memory can do. -/
theorem access_cases (inp : Inputs) (n : Nat) (body : Block → Reaction) (b : Block) :
    (memAdmits inp.params.memLimit b.addr n = true ∧ access inp n body b = body b) ∨
    (memAdmits inp.params.memLimit b.addr n = false ∧
      access inp n body b = finish (.fatal .memoryLimit) b) := by
  unfold access raise
  cases memAdmits inp.params.memLimit b.addr n <;> simp

/-- Everything a jump that is taken can do. -/
theorem jumpTaken_cases (k : Nat) (b : Block) :
    ((b.peek 0).toNat ∈ b.jd ∧
      jumpTaken k b = goOn { b with stack := b.stack.drop k, pc := (b.peek 0).toNat }) ∨
    ((b.peek 0).toNat ∉ b.jd ∧ jumpTaken k b = finish (.exit 1) b) := by
  by_cases h : (b.peek 0).toNat ∈ b.jd
  · exact .inl ⟨h, by simp [jumpTaken, Block.validTarget, h, Block.replaceTop, Block.setPc]⟩
  · exact .inr ⟨h, by simp [jumpTaken, Block.validTarget, h, exitWith]⟩

/-- Everything a PUSHn can do (R94, R327: the shortfall first). -/
theorem pushImmediate_cases (n : Nat) (imm : List Byte) (b : Block) :
    (imm.length < n ∧ pushImmediate n imm b = finish (.fatal .malformedPush) b) ∨
    (n ≤ imm.length ∧ 1024 ≤ b.stack.length ∧
      pushImmediate n imm b = finish (.fatal .stackOverflow) b) ∨
    (n ≤ imm.length ∧ b.stack.length < 1024 ∧
      pushImmediate n imm b = goOn { b with stack := wordOfBytes imm :: b.stack, pc := b.pc + n }) := by
  unfold pushImmediate
  rcases Nat.lt_or_ge imm.length n with h | h
  · exact .inl ⟨h, by simp [h, raise]⟩
  · right
    rw [if_neg (Nat.not_lt.mpr h)]
    rcases Nat.lt_or_ge b.stack.length 1024 with ho | ho
    · exact .inr ⟨h, ho, by rw [standard_run _ _ _ (Nat.zero_le _) (by omega)]; rfl⟩
    · exact .inl ⟨h, ho, standard_overflow _ _ _ (Nat.zero_le _) (by omega)⟩

/-! ## Fetching and stepping -/

/-- Everything a fetch can find, in terms of the bytes at pc. -/
theorem fetch_endOfCode (code : List Byte) (h : code.length ≤ b.pc) : fetch code b = .endOfCode := by
  simp [fetch, Block.ahead, List.drop_eq_nil_of_le h, decode]

theorem fetch_unknown (code : List Byte) (op : Byte) (h : decode (code.drop b.pc) = .error (.unknownOpcode op)) :
    fetch code b = .unknown { b with pc := b.pc + 1 } := by
  simp [fetch, Block.ahead, h, Block.setPc]

theorem fetch_instr (code : List Byte) (i : Instr) (rest : List Byte) (h : decode (code.drop b.pc) = .ok (i, rest)) :
    fetch code b = .instr i { b with pc := b.pc + 1 } := by
  simp [fetch, Block.ahead, h, Block.setPc]

/-- Everything the system does while its block is not Running. -/
theorem step_not_running (h : s.phase ≠ .running) : step s = awaitStart s := by
  unfold step; split <;> simp_all

theorem step_running (h : s.phase = .running) : step s = runStep s := by simp [step, h]

theorem awaitStart_cases (s : State) :
    (s.starts = [] ∧ awaitStart s = .next s) ∨
    (∃ code later, s.starts = code :: later ∧ code.length ≤ s.params.codeMax ∧
      awaitStart s = .next (beginRun code { s with starts := later })) ∨
    (∃ code later, s.starts = code :: later ∧ s.params.codeMax < code.length ∧
      awaitStart s = .refused .codeTooLong) := by
  unfold awaitStart
  cases h : s.starts with
  | nil => exact .inl ⟨rfl, rfl⟩
  | cons code later =>
    right
    by_cases hl : code.length ≤ s.params.codeMax
    · exact .inl ⟨code, later, rfl, hl, by simp [hl]⟩
    · exact .inr ⟨code, later, rfl, by omega, by simp [hl]⟩

end Sys2Proof.Machine
end

