-- ==== Sys2Proof/Laws/Operands.lean ====
section
/-! SUPPORT. What each operand form of Machine/Operands.lean does: its result where it runs, and everything it can do. -/

namespace Sys2Proof.Machine

variable {b : Block}

/-! ## The ALU forms -/

theorem aluUnary_run (f : Word → Word) (x : Word) (rest : List Word) (h : b.stack = x :: rest)
    (hd : b.stack.length ≤ 1024) : aluUnary f b = goOn { b with stack := f x :: rest } := by
  rw [aluUnary, standard_run _ _ _ (by simp [h]) (by omega)]
  simp [Block.replaceTop, Block.peek, h]

theorem aluBinary_run (f : Word → Word → Word) (x y : Word) (rest : List Word) (h : b.stack = x :: y :: rest)
    (hd : b.stack.length ≤ 1024) : aluBinary f b = goOn { b with stack := f x y :: rest } := by
  rw [aluBinary, standard_run _ _ _ (by simp [h]) (by omega)]
  simp [Block.replaceTop, Block.peek, h]

theorem aluTernary_run (f : Word → Word → Word → Word) (x y z : Word) (rest : List Word)
    (h : b.stack = x :: y :: z :: rest) (hd : b.stack.length ≤ 1024) :
    aluTernary f b = goOn { b with stack := f x y z :: rest } := by
  rw [aluTernary, standard_run _ _ _ (by simp [h]) (by omega)]
  simp [Block.replaceTop, Block.peek, h]

/-! ## Memory forms -/

/-- Everything a load can do. -/
theorem loadWord_cases (n : Nat) (inp : Inputs) (b : Block) :
    (b.stack.length < 1 ∧ loadWord n inp b = finish (.fatal .stackUnderflow) b) ∨
    (1024 < b.stack.length ∧ loadWord n inp b = finish (.fatal .stackOverflow) b) ∨
    (1 ≤ b.stack.length ∧ b.stack.length ≤ 1024 ∧ memAdmits inp.params.memLimit b.addr n = false ∧
      loadWord n inp b = finish (.fatal .memoryLimit) b) ∨
    (1 ≤ b.stack.length ∧ b.stack.length ≤ 1024 ∧ memAdmits inp.params.memLimit b.addr n = true ∧
      loadWord n inp b = goOn { b with
        stack := memRead b.mem b.addr n :: b.stack.drop 1, msize := extent b.msize b.addr n }) := by
  unfold loadWord
  rcases standard_cases 1 1
    (access inp n fun b => goOn ((b.touch b.addr n).replaceTop 1 [memRead b.mem b.addr n])) b with
    ⟨h, e⟩ | ⟨h, ho, e⟩ | ⟨h, ho, e⟩
  · exact .inl ⟨h, e⟩
  · exact .inr (.inl ⟨by omega, e⟩)
  · rw [e]
    rcases access_cases inp n (fun b => goOn ((b.touch b.addr n).replaceTop 1 [memRead b.mem b.addr n])) b with
      ⟨ha, e'⟩ | ⟨ha, e'⟩ <;> rw [e']
    · exact .inr (.inr (.inr ⟨h, by omega, ha, rfl⟩))
    · exact .inr (.inr (.inl ⟨h, by omega, ha, rfl⟩))

/-- Everything a store can do. -/
theorem storeWord_cases (n : Nat) (inp : Inputs) (b : Block) :
    (b.stack.length < 2 ∧ storeWord n inp b = finish (.fatal .stackUnderflow) b) ∨
    (1026 < b.stack.length ∧ storeWord n inp b = finish (.fatal .stackOverflow) b) ∨
    (2 ≤ b.stack.length ∧ b.stack.length ≤ 1026 ∧ memAdmits inp.params.memLimit b.addr n = false ∧
      storeWord n inp b = finish (.fatal .memoryLimit) b) ∨
    (2 ≤ b.stack.length ∧ b.stack.length ≤ 1026 ∧ memAdmits inp.params.memLimit b.addr n = true ∧
      storeWord n inp b = goOn { b with
        stack := b.stack.drop 2, mem := memWrite b.mem b.addr n (b.peek 1), msize := extent b.msize b.addr n }) := by
  unfold storeWord
  rcases standard_cases 2 0 (access inp n fun b => goOn ((b.store b.addr n (b.peek 1)).replaceTop 2 [])) b with
    ⟨h, e⟩ | ⟨h, ho, e⟩ | ⟨h, ho, e⟩
  · exact .inl ⟨h, e⟩
  · exact .inr (.inl ⟨by omega, e⟩)
  · rw [e]
    rcases access_cases inp n (fun b => goOn ((b.store b.addr n (b.peek 1)).replaceTop 2 [])) b with
      ⟨ha, e'⟩ | ⟨ha, e'⟩ <;> rw [e']
    · exact .inr (.inr (.inr ⟨h, by omega, ha, rfl⟩))
    · exact .inr (.inr (.inl ⟨h, by omega, ha, rfl⟩))

/-! ## Stack forms -/

theorem pushWord_run (v : Block → Word) (h : b.stack.length < 1024) :
    pushWord v b = goOn { b with stack := v b :: b.stack } := by
  rw [pushWord, standard_run _ _ _ (Nat.zero_le _) (by omega)]; rfl

theorem dupEntry_run (n : Nat) (v : Word) (h : b.stack[n - 1]? = some v) (hn : n ≤ b.stack.length)
    (hd : b.stack.length < 1024) : dupEntry n b = goOn { b with stack := v :: b.stack } := by
  rw [dupEntry, standard_run _ _ _ hn (by omega)]
  simp [Block.replaceTop, Block.peek, List.getD, h]

/-- Everything a SWAPn can do. -/
theorem swapEntry_cases (n : Nat) (b : Block) :
    (b.stack.length < n + 1 ∧ swapEntry n b = finish (.fatal .stackUnderflow) b) ∨
    (n < b.stack.length ∧ swapEntry n b = goOn
      { b with stack := (b.stack.set 0 (b.peek n)).set n (b.peek 0) }) := by
  rcases Nat.lt_or_ge b.stack.length (n + 1) with h | h
  · exact .inl ⟨h, by simp [swapEntry, Block.depth, h, raise]⟩
  · exact .inr ⟨by omega, by simp [swapEntry, Block.depth, Nat.not_lt.mpr h, Block.exchange]⟩

end Sys2Proof.Machine
end

