-- ==== Sys2Proof/Laws/PerInstr.lean ====
section
/-! SUPPORT. Statements for all instructions, one lemma per constructor. -/

/-- The encoding of a well-formed instruction has the length R90 and R102 give it, and begins with one opcode byte. -/
def Sys2Proof.Laws.EncodingLength.Statement (i : Sys2Proof.Instr) : Prop :=
  i.wellFormed = true → (Sys2Proof.encode i).length = Sys2Proof.instrLength i

namespace Sys2Proof.Laws.EncodingLength

theorem stop : Statement .stop := fun _ => rfl
theorem add : Statement .add := fun _ => rfl
theorem mul : Statement .mul := fun _ => rfl
theorem sub : Statement .sub := fun _ => rfl
theorem div : Statement .div := fun _ => rfl
theorem sdiv : Statement .sdiv := fun _ => rfl
theorem mod : Statement .mod := fun _ => rfl
theorem smod : Statement .smod := fun _ => rfl
theorem addmod : Statement .addmod := fun _ => rfl
theorem mulmod : Statement .mulmod := fun _ => rfl
theorem exp : Statement .exp := fun _ => rfl
theorem lt : Statement .lt := fun _ => rfl
theorem gt : Statement .gt := fun _ => rfl
theorem slt : Statement .slt := fun _ => rfl
theorem sgt : Statement .sgt := fun _ => rfl
theorem eq : Statement .eq := fun _ => rfl
theorem iszero : Statement .iszero := fun _ => rfl
theorem and : Statement .and := fun _ => rfl
theorem or : Statement .or := fun _ => rfl
theorem xor : Statement .xor := fun _ => rfl
theorem not : Statement .not := fun _ => rfl
theorem byte : Statement .byte := fun _ => rfl
theorem shl : Statement .shl := fun _ => rfl
theorem shr : Statement .shr := fun _ => rfl
theorem sar : Statement .sar := fun _ => rfl
theorem pop : Statement .pop := fun _ => rfl
theorem mload : Statement .mload := fun _ => rfl
theorem mstore : Statement .mstore := fun _ => rfl
theorem mstore8 : Statement .mstore8 := fun _ => rfl
theorem jump : Statement .jump := fun _ => rfl
theorem jumpi : Statement .jumpi := fun _ => rfl
theorem pc : Statement .pc := fun _ => rfl
theorem gas : Statement .gas := fun _ => rfl
theorem jumpdest : Statement .jumpdest := fun _ => rfl
theorem push1 (imm : List Byte) : Statement (.push1 imm) := fun h => by
  simp only [Instr.wellFormed, beq_iff_eq] at h
  simp [encode, instrLength, h]
theorem push2 (imm : List Byte) : Statement (.push2 imm) := fun h => by
  simp only [Instr.wellFormed, beq_iff_eq] at h
  simp [encode, instrLength, h]
theorem push3 (imm : List Byte) : Statement (.push3 imm) := fun h => by
  simp only [Instr.wellFormed, beq_iff_eq] at h
  simp [encode, instrLength, h]
theorem push4 (imm : List Byte) : Statement (.push4 imm) := fun h => by
  simp only [Instr.wellFormed, beq_iff_eq] at h
  simp [encode, instrLength, h]
theorem push5 (imm : List Byte) : Statement (.push5 imm) := fun h => by
  simp only [Instr.wellFormed, beq_iff_eq] at h
  simp [encode, instrLength, h]
theorem push6 (imm : List Byte) : Statement (.push6 imm) := fun h => by
  simp only [Instr.wellFormed, beq_iff_eq] at h
  simp [encode, instrLength, h]
theorem push7 (imm : List Byte) : Statement (.push7 imm) := fun h => by
  simp only [Instr.wellFormed, beq_iff_eq] at h
  simp [encode, instrLength, h]
theorem push8 (imm : List Byte) : Statement (.push8 imm) := fun h => by
  simp only [Instr.wellFormed, beq_iff_eq] at h
  simp [encode, instrLength, h]
theorem push9 (imm : List Byte) : Statement (.push9 imm) := fun h => by
  simp only [Instr.wellFormed, beq_iff_eq] at h
  simp [encode, instrLength, h]
theorem push10 (imm : List Byte) : Statement (.push10 imm) := fun h => by
  simp only [Instr.wellFormed, beq_iff_eq] at h
  simp [encode, instrLength, h]
theorem push11 (imm : List Byte) : Statement (.push11 imm) := fun h => by
  simp only [Instr.wellFormed, beq_iff_eq] at h
  simp [encode, instrLength, h]
theorem push12 (imm : List Byte) : Statement (.push12 imm) := fun h => by
  simp only [Instr.wellFormed, beq_iff_eq] at h
  simp [encode, instrLength, h]
theorem push13 (imm : List Byte) : Statement (.push13 imm) := fun h => by
  simp only [Instr.wellFormed, beq_iff_eq] at h
  simp [encode, instrLength, h]
theorem push14 (imm : List Byte) : Statement (.push14 imm) := fun h => by
  simp only [Instr.wellFormed, beq_iff_eq] at h
  simp [encode, instrLength, h]
theorem push15 (imm : List Byte) : Statement (.push15 imm) := fun h => by
  simp only [Instr.wellFormed, beq_iff_eq] at h
  simp [encode, instrLength, h]
theorem push16 (imm : List Byte) : Statement (.push16 imm) := fun h => by
  simp only [Instr.wellFormed, beq_iff_eq] at h
  simp [encode, instrLength, h]
theorem push17 (imm : List Byte) : Statement (.push17 imm) := fun h => by
  simp only [Instr.wellFormed, beq_iff_eq] at h
  simp [encode, instrLength, h]
theorem push18 (imm : List Byte) : Statement (.push18 imm) := fun h => by
  simp only [Instr.wellFormed, beq_iff_eq] at h
  simp [encode, instrLength, h]
theorem push19 (imm : List Byte) : Statement (.push19 imm) := fun h => by
  simp only [Instr.wellFormed, beq_iff_eq] at h
  simp [encode, instrLength, h]
theorem push20 (imm : List Byte) : Statement (.push20 imm) := fun h => by
  simp only [Instr.wellFormed, beq_iff_eq] at h
  simp [encode, instrLength, h]
theorem push21 (imm : List Byte) : Statement (.push21 imm) := fun h => by
  simp only [Instr.wellFormed, beq_iff_eq] at h
  simp [encode, instrLength, h]
theorem push22 (imm : List Byte) : Statement (.push22 imm) := fun h => by
  simp only [Instr.wellFormed, beq_iff_eq] at h
  simp [encode, instrLength, h]
theorem push23 (imm : List Byte) : Statement (.push23 imm) := fun h => by
  simp only [Instr.wellFormed, beq_iff_eq] at h
  simp [encode, instrLength, h]
theorem push24 (imm : List Byte) : Statement (.push24 imm) := fun h => by
  simp only [Instr.wellFormed, beq_iff_eq] at h
  simp [encode, instrLength, h]
theorem push25 (imm : List Byte) : Statement (.push25 imm) := fun h => by
  simp only [Instr.wellFormed, beq_iff_eq] at h
  simp [encode, instrLength, h]
theorem push26 (imm : List Byte) : Statement (.push26 imm) := fun h => by
  simp only [Instr.wellFormed, beq_iff_eq] at h
  simp [encode, instrLength, h]
theorem push27 (imm : List Byte) : Statement (.push27 imm) := fun h => by
  simp only [Instr.wellFormed, beq_iff_eq] at h
  simp [encode, instrLength, h]
theorem push28 (imm : List Byte) : Statement (.push28 imm) := fun h => by
  simp only [Instr.wellFormed, beq_iff_eq] at h
  simp [encode, instrLength, h]
theorem push29 (imm : List Byte) : Statement (.push29 imm) := fun h => by
  simp only [Instr.wellFormed, beq_iff_eq] at h
  simp [encode, instrLength, h]
theorem push30 (imm : List Byte) : Statement (.push30 imm) := fun h => by
  simp only [Instr.wellFormed, beq_iff_eq] at h
  simp [encode, instrLength, h]
theorem push31 (imm : List Byte) : Statement (.push31 imm) := fun h => by
  simp only [Instr.wellFormed, beq_iff_eq] at h
  simp [encode, instrLength, h]
theorem push32 (imm : List Byte) : Statement (.push32 imm) := fun h => by
  simp only [Instr.wellFormed, beq_iff_eq] at h
  simp [encode, instrLength, h]
theorem dup1 : Statement .dup1 := fun _ => rfl
theorem dup2 : Statement .dup2 := fun _ => rfl
theorem dup3 : Statement .dup3 := fun _ => rfl
theorem dup4 : Statement .dup4 := fun _ => rfl
theorem dup5 : Statement .dup5 := fun _ => rfl
theorem dup6 : Statement .dup6 := fun _ => rfl
theorem dup7 : Statement .dup7 := fun _ => rfl
theorem dup8 : Statement .dup8 := fun _ => rfl
theorem dup9 : Statement .dup9 := fun _ => rfl
theorem dup10 : Statement .dup10 := fun _ => rfl
theorem dup11 : Statement .dup11 := fun _ => rfl
theorem dup12 : Statement .dup12 := fun _ => rfl
theorem dup13 : Statement .dup13 := fun _ => rfl
theorem dup14 : Statement .dup14 := fun _ => rfl
theorem dup15 : Statement .dup15 := fun _ => rfl
theorem dup16 : Statement .dup16 := fun _ => rfl
theorem swap1 : Statement .swap1 := fun _ => rfl
theorem swap2 : Statement .swap2 := fun _ => rfl
theorem swap3 : Statement .swap3 := fun _ => rfl
theorem swap4 : Statement .swap4 := fun _ => rfl
theorem swap5 : Statement .swap5 := fun _ => rfl
theorem swap6 : Statement .swap6 := fun _ => rfl
theorem swap7 : Statement .swap7 := fun _ => rfl
theorem swap8 : Statement .swap8 := fun _ => rfl
theorem swap9 : Statement .swap9 := fun _ => rfl
theorem swap10 : Statement .swap10 := fun _ => rfl
theorem swap11 : Statement .swap11 := fun _ => rfl
theorem swap12 : Statement .swap12 := fun _ => rfl
theorem swap13 : Statement .swap13 := fun _ => rfl
theorem swap14 : Statement .swap14 := fun _ => rfl
theorem swap15 : Statement .swap15 := fun _ => rfl
theorem swap16 : Statement .swap16 := fun _ => rfl
theorem invalid : Statement .invalid := fun _ => rfl

end Sys2Proof.Laws.EncodingLength
end

