-- ==== Sys2Proof/Tests/Slice0.lean ====
section
/-! SUPPORT. The model's own tests: the checks of WellFormed, the decoding of every constructor from words written out from
the spec's encodings, single steps whose results the spec states, and for every statement of the certificate that has
hypotheses a concrete state and operands that meet them. -/

open Sys2Proof Sys2Proof.Machine Sys2Proof.Claims

namespace Sys2Proof.Tests

/-! ## Helpers -/

/-- A run in progress with MEM_LIMIT 64, CODE_MAX 100 and TRUE_ASR, the given code and the given stack (top first), at pc. -/
def runState (code : List Byte) (pc : Nat) (stack : List Word) : State :=
  { params := ⟨some 64, 100, .trueAsr⟩, code := code, starts := [], gasDraws := 0, phase := .running, pc := pc,
    stack := stack, mem := [], msize := 0, jd := scan code, res := .powerOn, diag := [] }

/-- The state in which the meaning of a one-byte instruction at offset 0 runs. -/
def stackState (stack : List Word) : State := runState [0x5b] 1 stack

/-- A stack of 1024 words. -/
def fullStack : List Word := List.replicate 1024 0

/-- A block between runs, with starts to come. -/
def restState (starts : List (List Byte)) : State :=
  { runState [] 0 [] with phase := .idle, starts := starts }

def nextOf (o : StepOutcome) : Option State :=
  match o with
  | .next s => some s
  | .fault _ => none
  | .refused _ => none

def stackAfter (o : StepOutcome) : Option (List Word) := (nextOf o).map (·.stack)

def decoded (bytes : List Byte) : Option (Instr × List Byte) :=
  match decode bytes with
  | .ok r => some r
  | .error _ => none

/-- The bytes 1, 2, ..., n. -/
def countUp (n : Nat) : List Byte := (List.range n).map fun k => BitVec.ofNat 8 (k + 1)

/-! ## WellFormed: an ill-formed term for each check -/

/-- A PUSHn with one immediate byte too few, for every n. -/
theorem test_push_one_byte_short_is_ill_formed :
    (pushMembers.all fun m => !(m.2.2 (List.replicate (m.1 - 1) 0)).wellFormed) = true := by decide

/-- A PUSHn with one immediate byte too many, for every n. -/
theorem test_push_one_byte_long_is_ill_formed :
    (pushMembers.all fun m => !(m.2.2 (List.replicate (m.1 + 1) 0)).wellFormed) = true := by decide

/-- A PUSHn with its n immediate bytes, for every n. -/
theorem test_push_is_well_formed :
    (pushMembers.all fun m => (m.2.2 (List.replicate m.1 0)).wellFormed) = true := by decide

theorem test_push2_of_one_byte_is_ill_formed : (Instr.push2 [0x01]).wellFormed = false := by decide

/-! ## Decoding -/

/-- 30_encoding.md R92, rows 0x01 to 0x0a, bit by bit; the byte after stays. -/
theorem test_decode_arithmetic :
    decoded [0b00000001, 0xaa] = some (.add, [0xaa]) ∧
    decoded [0b00000010, 0xaa] = some (.mul, [0xaa]) ∧
    decoded [0b00000011, 0xaa] = some (.sub, [0xaa]) ∧
    decoded [0b00000100, 0xaa] = some (.div, [0xaa]) ∧
    decoded [0b00000101, 0xaa] = some (.sdiv, [0xaa]) ∧
    decoded [0b00000110, 0xaa] = some (.mod, [0xaa]) ∧
    decoded [0b00000111, 0xaa] = some (.smod, [0xaa]) ∧
    decoded [0b00001000, 0xaa] = some (.addmod, [0xaa]) ∧
    decoded [0b00001001, 0xaa] = some (.mulmod, [0xaa]) ∧
    decoded [0b00001010, 0xaa] = some (.exp, [0xaa]) := by decide

/-- R92, rows 0x10 to 0x19. -/
theorem test_decode_compare_logic :
    decoded [0b00010000, 0xaa] = some (.lt, [0xaa]) ∧
    decoded [0b00010001, 0xaa] = some (.gt, [0xaa]) ∧
    decoded [0b00010010, 0xaa] = some (.slt, [0xaa]) ∧
    decoded [0b00010011, 0xaa] = some (.sgt, [0xaa]) ∧
    decoded [0b00010100, 0xaa] = some (.eq, [0xaa]) ∧
    decoded [0b00010101, 0xaa] = some (.iszero, [0xaa]) ∧
    decoded [0b00010110, 0xaa] = some (.and, [0xaa]) ∧
    decoded [0b00010111, 0xaa] = some (.or, [0xaa]) ∧
    decoded [0b00011000, 0xaa] = some (.xor, [0xaa]) ∧
    decoded [0b00011001, 0xaa] = some (.not, [0xaa]) := by decide

/-- R92, rows 0x1a to 0x1d. -/
theorem test_decode_bitops :
    decoded [0b00011010, 0xaa] = some (.byte, [0xaa]) ∧
    decoded [0b00011011, 0xaa] = some (.shl, [0xaa]) ∧
    decoded [0b00011100, 0xaa] = some (.shr, [0xaa]) ∧
    decoded [0b00011101, 0xaa] = some (.sar, [0xaa]) := by decide

/-- R92, rows 0x50 to 0x5b, 0x00 and 0xfe. -/
theorem test_decode_memory_stack_system :
    decoded [0b01010000, 0xaa] = some (.pop, [0xaa]) ∧
    decoded [0b01010001, 0xaa] = some (.mload, [0xaa]) ∧
    decoded [0b01010010, 0xaa] = some (.mstore, [0xaa]) ∧
    decoded [0b01010011, 0xaa] = some (.mstore8, [0xaa]) ∧
    decoded [0b01010110, 0xaa] = some (.jump, [0xaa]) ∧
    decoded [0b01010111, 0xaa] = some (.jumpi, [0xaa]) ∧
    decoded [0b01011000, 0xaa] = some (.pc, [0xaa]) ∧
    decoded [0b01011010, 0xaa] = some (.gas, [0xaa]) ∧
    decoded [0b01011011, 0xaa] = some (.jumpdest, [0xaa]) ∧
    decoded [0b00000000, 0xaa] = some (.stop, [0xaa]) ∧
    decoded [0b11111110, 0xaa] = some (.invalid, [0xaa]) := by decide

/-- R90, format P: op[7:5] = 0b011, n = op[4:0] + 1, then n immediate bytes. -/
theorem test_decode_push_1_to_8 :
    decoded (0b01100000 :: countUp 1 ++ [0xaa]) = some (.push1 (countUp 1), [0xaa]) ∧
    decoded (0b01100001 :: countUp 2 ++ [0xaa]) = some (.push2 (countUp 2), [0xaa]) ∧
    decoded (0b01100010 :: countUp 3 ++ [0xaa]) = some (.push3 (countUp 3), [0xaa]) ∧
    decoded (0b01100011 :: countUp 4 ++ [0xaa]) = some (.push4 (countUp 4), [0xaa]) ∧
    decoded (0b01100100 :: countUp 5 ++ [0xaa]) = some (.push5 (countUp 5), [0xaa]) ∧
    decoded (0b01100101 :: countUp 6 ++ [0xaa]) = some (.push6 (countUp 6), [0xaa]) ∧
    decoded (0b01100110 :: countUp 7 ++ [0xaa]) = some (.push7 (countUp 7), [0xaa]) ∧
    decoded (0b01100111 :: countUp 8 ++ [0xaa]) = some (.push8 (countUp 8), [0xaa]) := by decide

/-- R90, format P: op[7:5] = 0b011, n = op[4:0] + 1, then n immediate bytes. -/
theorem test_decode_push_9_to_16 :
    decoded (0b01101000 :: countUp 9 ++ [0xaa]) = some (.push9 (countUp 9), [0xaa]) ∧
    decoded (0b01101001 :: countUp 10 ++ [0xaa]) = some (.push10 (countUp 10), [0xaa]) ∧
    decoded (0b01101010 :: countUp 11 ++ [0xaa]) = some (.push11 (countUp 11), [0xaa]) ∧
    decoded (0b01101011 :: countUp 12 ++ [0xaa]) = some (.push12 (countUp 12), [0xaa]) ∧
    decoded (0b01101100 :: countUp 13 ++ [0xaa]) = some (.push13 (countUp 13), [0xaa]) ∧
    decoded (0b01101101 :: countUp 14 ++ [0xaa]) = some (.push14 (countUp 14), [0xaa]) ∧
    decoded (0b01101110 :: countUp 15 ++ [0xaa]) = some (.push15 (countUp 15), [0xaa]) ∧
    decoded (0b01101111 :: countUp 16 ++ [0xaa]) = some (.push16 (countUp 16), [0xaa]) := by decide

/-- R90, format P: op[7:5] = 0b011, n = op[4:0] + 1, then n immediate bytes. -/
theorem test_decode_push_17_to_24 :
    decoded (0b01110000 :: countUp 17 ++ [0xaa]) = some (.push17 (countUp 17), [0xaa]) ∧
    decoded (0b01110001 :: countUp 18 ++ [0xaa]) = some (.push18 (countUp 18), [0xaa]) ∧
    decoded (0b01110010 :: countUp 19 ++ [0xaa]) = some (.push19 (countUp 19), [0xaa]) ∧
    decoded (0b01110011 :: countUp 20 ++ [0xaa]) = some (.push20 (countUp 20), [0xaa]) ∧
    decoded (0b01110100 :: countUp 21 ++ [0xaa]) = some (.push21 (countUp 21), [0xaa]) ∧
    decoded (0b01110101 :: countUp 22 ++ [0xaa]) = some (.push22 (countUp 22), [0xaa]) ∧
    decoded (0b01110110 :: countUp 23 ++ [0xaa]) = some (.push23 (countUp 23), [0xaa]) ∧
    decoded (0b01110111 :: countUp 24 ++ [0xaa]) = some (.push24 (countUp 24), [0xaa]) := by decide

/-- R90, format P: op[7:5] = 0b011, n = op[4:0] + 1, then n immediate bytes. -/
theorem test_decode_push_25_to_32 :
    decoded (0b01111000 :: countUp 25 ++ [0xaa]) = some (.push25 (countUp 25), [0xaa]) ∧
    decoded (0b01111001 :: countUp 26 ++ [0xaa]) = some (.push26 (countUp 26), [0xaa]) ∧
    decoded (0b01111010 :: countUp 27 ++ [0xaa]) = some (.push27 (countUp 27), [0xaa]) ∧
    decoded (0b01111011 :: countUp 28 ++ [0xaa]) = some (.push28 (countUp 28), [0xaa]) ∧
    decoded (0b01111100 :: countUp 29 ++ [0xaa]) = some (.push29 (countUp 29), [0xaa]) ∧
    decoded (0b01111101 :: countUp 30 ++ [0xaa]) = some (.push30 (countUp 30), [0xaa]) ∧
    decoded (0b01111110 :: countUp 31 ++ [0xaa]) = some (.push31 (countUp 31), [0xaa]) ∧
    decoded (0b01111111 :: countUp 32 ++ [0xaa]) = some (.push32 (countUp 32), [0xaa]) := by decide

/-- R90: op[7:4] = 0b1000, n = op[3:0] + 1. -/
theorem test_decode_dup_1_to_8 :
    decoded [0b10000000, 0xaa] = some (.dup1, [0xaa]) ∧
    decoded [0b10000001, 0xaa] = some (.dup2, [0xaa]) ∧
    decoded [0b10000010, 0xaa] = some (.dup3, [0xaa]) ∧
    decoded [0b10000011, 0xaa] = some (.dup4, [0xaa]) ∧
    decoded [0b10000100, 0xaa] = some (.dup5, [0xaa]) ∧
    decoded [0b10000101, 0xaa] = some (.dup6, [0xaa]) ∧
    decoded [0b10000110, 0xaa] = some (.dup7, [0xaa]) ∧
    decoded [0b10000111, 0xaa] = some (.dup8, [0xaa]) := by decide

/-- R90: op[7:4] = 0b1000, n = op[3:0] + 1. -/
theorem test_decode_dup_9_to_16 :
    decoded [0b10001000, 0xaa] = some (.dup9, [0xaa]) ∧
    decoded [0b10001001, 0xaa] = some (.dup10, [0xaa]) ∧
    decoded [0b10001010, 0xaa] = some (.dup11, [0xaa]) ∧
    decoded [0b10001011, 0xaa] = some (.dup12, [0xaa]) ∧
    decoded [0b10001100, 0xaa] = some (.dup13, [0xaa]) ∧
    decoded [0b10001101, 0xaa] = some (.dup14, [0xaa]) ∧
    decoded [0b10001110, 0xaa] = some (.dup15, [0xaa]) ∧
    decoded [0b10001111, 0xaa] = some (.dup16, [0xaa]) := by decide

/-- R90: op[7:4] = 0b1001, n = op[3:0] + 1. -/
theorem test_decode_swap_1_to_8 :
    decoded [0b10010000, 0xaa] = some (.swap1, [0xaa]) ∧
    decoded [0b10010001, 0xaa] = some (.swap2, [0xaa]) ∧
    decoded [0b10010010, 0xaa] = some (.swap3, [0xaa]) ∧
    decoded [0b10010011, 0xaa] = some (.swap4, [0xaa]) ∧
    decoded [0b10010100, 0xaa] = some (.swap5, [0xaa]) ∧
    decoded [0b10010101, 0xaa] = some (.swap6, [0xaa]) ∧
    decoded [0b10010110, 0xaa] = some (.swap7, [0xaa]) ∧
    decoded [0b10010111, 0xaa] = some (.swap8, [0xaa]) := by decide

/-- R90: op[7:4] = 0b1001, n = op[3:0] + 1. -/
theorem test_decode_swap_9_to_16 :
    decoded [0b10011000, 0xaa] = some (.swap9, [0xaa]) ∧
    decoded [0b10011001, 0xaa] = some (.swap10, [0xaa]) ∧
    decoded [0b10011010, 0xaa] = some (.swap11, [0xaa]) ∧
    decoded [0b10011011, 0xaa] = some (.swap12, [0xaa]) ∧
    decoded [0b10011100, 0xaa] = some (.swap13, [0xaa]) ∧
    decoded [0b10011101, 0xaa] = some (.swap14, [0xaa]) ∧
    decoded [0b10011110, 0xaa] = some (.swap15, [0xaa]) ∧
    decoded [0b10011111, 0xaa] = some (.swap16, [0xaa]) := by decide
/-- R96: the ends of the ranges of unknown bytes. -/
theorem test_unknown_bytes :
    ([0x0b, 0x0f, 0x1e, 0x4f, 0x54, 0x55, 0x59, 0x5c, 0x5f, 0xa0, 0xfd, 0xff].all fun op =>
      (decoded [op, 0x00]).isNone) = true := by decide

/-- R94: the immediate of a PUSH that the code cuts short is what is left. -/
theorem test_decode_cut_push : decoded [0x62, 0x01, 0x02] = some (.push3 [0x01, 0x02], []) := by decide

/-- The table's numbering: the first byte is bits 7..0, the next bits 15..8. -/
theorem test_decode_table_word :
    decodeTableWord 24 0xbbaa61 = some (.push2 [0xaa, 0xbb]) ∧ decodeTableWord 8 0x1d = some .sar ∧
    decodeTableWord 8 0x0c = none := by decide

/-- The next step of reset with a table word placed runs exactly that instruction: PUSH1 0x2a, then INVALID's exit code. -/
theorem test_with_fetch_word :
    stackAfter (step (State.reset.withFetchWord 16 0x2a60)) = some [0x2a] ∧
    (nextOf (step (State.reset.withFetchWord 8 0xfe))).map (·.phase) = some (.exited 1) := by decide

/-- R99: `[PUSH2, 0x5b, 0x5b, JUMPDEST]` registers offset 3 only. -/
theorem test_scan_skips_immediates : scan [0x61, 0x5b, 0x5b, 0x5b] = [3] := by decide

/-! ## Single steps the spec states -/

/-- R121: its example over a third entry, and ADD(MAX, 1) = 0. -/
theorem test_add :
    stackAfter (exec .add (stackState [5, 3, 9])) = some [8, 9] ∧
    stackAfter (exec .add (stackState [Word.maxValue, 1])) = some [0] := by decide

/-- R122: MUL(2^128, 2^128) = 0, MUL(MIN_NEG, MAX) = MIN_NEG. -/
theorem test_mul :
    stackAfter (exec .mul (stackState [0x100000000000000000000000000000000, 0x100000000000000000000000000000000])) = some [0] ∧
    stackAfter (exec .mul (stackState [Word.minNeg, Word.maxValue])) = some [Word.minNeg] := by decide

/-- R123, the source's example: the top is the minuend. -/
theorem test_sub :
    stackAfter (exec .sub (stackState [0, 0x20])) = some [BitVec.ofInt 256 (-32)] := by decide

/-- R124: 7 div 2, and 0 for a zero divisor. -/
theorem test_div :
    stackAfter (exec .div (stackState [7, 2])) = some [3] ∧
    stackAfter (exec .div (stackState [7, 0])) = some [0] := by decide

/-- R125: -7 by 2 is -3; MIN_NEG by -1 wraps. -/
theorem test_sdiv :
    stackAfter (exec .sdiv (stackState [BitVec.ofInt 256 (-7), 2])) = some [BitVec.ofInt 256 (-3)] ∧
    stackAfter (exec .sdiv (stackState [Word.minNeg, Word.maxValue])) = some [Word.minNeg] := by decide

/-- R126: MOD(MAX, 2) = 1, and 0 for a zero modulus. -/
theorem test_mod :
    stackAfter (exec .mod (stackState [Word.maxValue, 2])) = some [1] ∧
    stackAfter (exec .mod (stackState [5, 0])) = some [0] := by decide

/-- R127: SMOD(MIN_NEG, 3) = w(-2); a = 7, b = w(-2) gives 1. -/
theorem test_smod :
    stackAfter (exec .smod (stackState [Word.minNeg, 3])) = some [BitVec.ofInt 256 (-2)] ∧
    stackAfter (exec .smod (stackState [7, BitVec.ofInt 256 (-2)])) = some [1] := by decide

/-- R128: ADDMOD(MAX, 2, 3) = 2 by the exact sum; 0 for modulus 0. -/
theorem test_addmod :
    stackAfter (exec .addmod (stackState [Word.maxValue, 2, 3])) = some [2] ∧
    stackAfter (exec .addmod (stackState [1, 2, 0])) = some [0] := by decide

/-- R129: its example over a fourth entry, and MULMOD(MAX, MAX, 12) = 9 by the exact product. -/
theorem test_mulmod :
    stackAfter (exec .mulmod (stackState [10, 10, 8, 1])) = some [4, 1] ∧
    stackAfter (exec .mulmod (stackState [Word.maxValue, Word.maxValue, 12])) = some [9] := by decide

set_option maxRecDepth 4000 in
/-- R130: 3 ^ 4, EXP(2, 255) = MIN_NEG, EXP(0, 0) = 1. -/
theorem test_exp :
    stackAfter (exec .exp (stackState [3, 4])) = some [81] ∧
    stackAfter (exec .exp (stackState [2, 255])) = some [Word.minNeg] ∧
    stackAfter (exec .exp (stackState [0, 0])) = some [1] := by decide

/-- R151, R152: unsigned, LT(MIN_NEG, 1) = 0, GT(MAX, 0) = 1. -/
theorem test_lt_gt :
    stackAfter (exec .lt (stackState [Word.minNeg, 1])) = some [0] ∧
    stackAfter (exec .lt (stackState [3, 5])) = some [1] ∧
    stackAfter (exec .gt (stackState [Word.maxValue, 0])) = some [1] := by decide

/-- R153, R154: SLT(MIN_NEG, MAX) = 1, SLT(0, MAX) = 0, SGT(1, -1) = 1. -/
theorem test_slt_sgt :
    stackAfter (exec .slt (stackState [Word.minNeg, Word.maxValue])) = some [1] ∧
    stackAfter (exec .slt (stackState [0, Word.maxValue])) = some [0] ∧
    stackAfter (exec .sgt (stackState [1, BitVec.ofInt 256 (-1)])) = some [1] := by decide

/-- R155, R156: EQ(0, MIN_NEG) = 0, EQ(5, 5) = 1, ISZERO. -/
theorem test_eq_iszero :
    stackAfter (exec .eq (stackState [0, Word.minNeg])) = some [0] ∧
    stackAfter (exec .eq (stackState [5, 5])) = some [1] ∧
    stackAfter (exec .iszero (stackState [0])) = some [1] ∧
    stackAfter (exec .iszero (stackState [Word.minNeg])) = some [0] := by decide

/-- R157 to R160, by hand. -/
theorem test_logic :
    stackAfter (exec .and (stackState [0b1100, 0b1010])) = some [0b1000] ∧
    stackAfter (exec .or (stackState [0b1100, 0b1010])) = some [0b1110] ∧
    stackAfter (exec .xor (stackState [0b1100, 0b1010])) = some [0b0110] ∧
    stackAfter (exec .not (stackState [0])) = some [Word.maxValue] := by decide

/-- R174: byte 31 is the lowest, byte 0 the highest, byte 32 is 0. -/
theorem test_byte :
    stackAfter (exec .byte (stackState [31, 0x1234])) = some [0x34] ∧
    stackAfter (exec .byte (stackState [0, Word.minNeg])) = some [0x80] ∧
    stackAfter (exec .byte (stackState [32, Word.maxValue])) = some [0] := by decide

/-- R171, R172: the amount is S[0]; SHL(255, 1) = MIN_NEG, SHR(256, MAX) = 0. -/
theorem test_shifts :
    stackAfter (exec .shl (stackState [4, 0x0f])) = some [0xf0] ∧
    stackAfter (exec .shl (stackState [255, 1])) = some [Word.minNeg] ∧
    stackAfter (exec .shr (stackState [4, 0xf0])) = some [0x0f] ∧
    stackAfter (exec .shr (stackState [256, Word.maxValue])) = some [0] := by decide

/-- R200: [2, 1] gives [1]. -/
theorem test_pop :
    stackAfter (exec .pop (stackState [2, 1])) = some [1] := by decide

/-- R263 and its members: DUP1 of one entry, DUP3 copies S[2]. -/
theorem test_dup :
    stackAfter (exec .dup1 (stackState [7])) = some [7, 7] ∧
    stackAfter (exec .dup3 (stackState [1, 2, 3, 4])) = some [3, 1, 2, 3, 4] := by decide

/-- R280 and its members: SWAP1 and SWAP3. -/
theorem test_swap :
    stackAfter (exec .swap1 (stackState [1, 2])) = some [2, 1] ∧
    stackAfter (exec .swap3 (stackState [1, 2, 3, 4, 5])) = some [4, 2, 3, 1, 5] := by decide

/-- R94: the first immediate byte is the most significant; zero-extended. -/
theorem test_push :
    stackAfter (exec (.push2 [0x01, 0x02]) (stackState [])) = some [0x0102] ∧
    stackAfter (exec (.push1 [0xff]) (stackState [9])) = some [0xff, 9] := by decide

/-- R173, R175: SAR(1, w(-7)) is w(-4) under TRUE_ASR and w(-3) under REFERENCE_FLIP. -/
theorem test_sar_modes :
    alu .trueAsr 0x1d 1 (BitVec.ofInt 256 (-7)) 0 = some (BitVec.ofInt 256 (-4)) ∧
    alu .referenceFlip 0x1d 1 (BitVec.ofInt 256 (-7)) 0 = some (BitVec.ofInt 256 (-3)) := by decide

/-- R173: SAR(300, MIN_NEG) = MAX under TRUE_ASR, 0 under REFERENCE_FLIP. -/
theorem test_sar_far :
    alu .trueAsr 0x1d 300 Word.minNeg 0 = some Word.maxValue ∧
    alu .referenceFlip 0x1d 300 Word.minNeg 0 = some 0 := by decide

/-- R174, R330: BYTE at offset 32 emits its warning with the offset of the instruction. -/
theorem test_byte_warns :
    (nextOf (exec .byte (stackState [32, 1]))).map (·.diag) = some [⟨.warning, .byteOffsetOutOfRange, 0⟩] := by decide

/-- R192's example: MSTORE(0, 0xff) sets byte 31 to 0xff, lists nothing else, and touches 32 bytes. -/
theorem test_mstore :
    (nextOf (exec .mstore (stackState [0, 0xff]))).map (fun s => (s.mem, s.msize, s.stack)) =
      some ([(31, 0xff)], 32, []) := by decide

/-- R193: v = 0x1234 stores 0x34; R66: an access at address 32 touches 64 bytes. -/
theorem test_mstore8 :
    (nextOf (exec .mstore8 (stackState [32, 0x1234]))).map (fun s => (s.mem, s.msize)) =
      some ([(32, 0x34)], 64) := by decide

/-- R191's example: after MSTORE(0, 0x2a), MLOAD(1) gives 0x2a * 2^8, and touches 64 bytes. -/
theorem test_mload :
    (nextOf (exec .mload { stackState [1] with mem := [(31, 0x2a)], msize := 32 })).map
      (fun s => (s.stack, s.msize)) = some ([0x2a00], 64) := by decide

/-- R62: an MLOAD at 33 passes a limit of 64: Fatal(MemoryLimit), the offset still in the result. -/
theorem test_mload_past_limit :
    (nextOf (exec .mload (stackState [33]))).map (fun s => (s.phase, s.res.stack, s.msize)) =
      some (.fatal .memoryLimit, [33], 0) := by decide

/-- R201's example `[PUSH1, 0x04, JUMP, INVALID, JUMPDEST]`: the jump at offset 2 goes to offset 4. -/
theorem test_jump :
    (nextOf (step (runState [0x60, 0x04, 0x56, 0xfe, 0x5b] 2 [4]))).map (fun s => (s.pc, s.stack)) =
      some (4, []) := by decide

/-- R201: the same code jumping to offset 3 fails with exit code 1 and keeps the target. -/
theorem test_jump_bad_target :
    (nextOf (step (runState [0x60, 0x04, 0x56, 0xfe, 0x5b] 2 [3]))).map (fun s => (s.phase, s.res.stack, s.pc)) =
      some (.exited 1, [3], 0) := by decide

/-- R202: cond = MIN_NEG is taken; cond = 0 with an invalid target is not an error. -/
theorem test_jumpi :
    (nextOf (exec .jumpi (stackState [0, Word.minNeg]))).map (fun s => (s.pc, s.stack)) = some (0, []) ∧
    (nextOf (exec .jumpi (stackState [9, 0]))).map (fun s => (s.pc, s.stack, s.phase)) = some (1, [], .running) := by
  decide

/-- R203: PC after a PUSH2 at offset 0 pushes 3. -/
theorem test_pc : stackAfter (step (runState [0x61, 0x00, 0x00, 0x58] 3 [])) = some [3] := by decide

/-- R222: GAS counts one draw; what it pushes is free. -/
theorem test_gas : (nextOf (exec .gas (stackState []))).map (fun s => (s.gasDraws, s.stack.length)) = some (1, 1) := by
  decide

/-- R204: JUMPDEST changes nothing. -/
theorem test_jumpdest : nextOf (exec .jumpdest (stackState [1])) = some (stackState [1]) := by decide

/-- R221: `[PUSH1, 0x01, STOP, ...]` gives the result stack [1], success. -/
theorem test_stop :
    (nextOf (step (runState [0x60, 0x01, 0x00] 2 [1]))).map (fun s => (s.phase, s.res.stack, s.res.success)) =
      some (.exited 0, [1], true) := by decide

/-- R223: `[PUSH1, 0x07, INVALID]` gives the result stack [7], exit code 1, success = false. -/
theorem test_invalid :
    (nextOf (step (runState [0x60, 0x07, 0xfe] 2 [7]))).map (fun s => (s.res.code, s.res.stack, s.res.success)) =
      some (1, [7], false) := by decide

/-- R93: running off the end is a Success. -/
theorem test_end_of_code :
    (nextOf (step (runState [0x01] 1 [5]))).map (fun s => (s.phase, s.res.stack)) = some (.exited 0, [5]) := by decide

/-- R321, R326: an ADD at offset 2 with one word: StackUnderflow (code 1) at fault_pc 2, the stack kept. -/
theorem test_underflow :
    (nextOf (step (runState [0x60, 0x01, 0x01] 2 [1]))).map (fun s => (s.res.kind.map fatalCode, s.res.faultPc, s.res.stack)) =
      some (some 1, 2, [1]) := by decide

/-- R327: a truncated PUSH on a full stack is MalformedPush (code 4), not StackOverflow. -/
theorem test_push_order :
    (nextOf (step (runState [0x61, 0x01] 0 fullStack))).map (fun s => s.res.kind.map fatalCode) = some (some 4) := by
  decide

/-- The other codes of R321. -/
theorem test_fatal_codes :
    fatalCode .stackOverflow = 2 ∧ fatalCode .unknownOpcode = 3 ∧ fatalCode .memoryLimit = 5 := by decide

/-- R361: a start withdraws the result, scans the code and runs from offset 0. -/
theorem test_start :
    (nextOf (step (restState [[0x5b]]))).map (fun s => (s.phase, s.jd, s.pc)) = some (.running, [0], 0) ∧
    (nextOf (step (restState [[0x5b]]))).map (fun s => (s.code, s.starts)) = some ([0x5b], []) := by decide

/-- log 6: a bytecode longer than CODE_MAX is refused. -/
theorem test_code_too_long : nextOf (step (restState [List.replicate 101 0x00])) = none := by decide

/-! ## Witnesses: the hypotheses of every statement can be met

Each names the statement and gives, for each of its clauses, a concrete state and operands that meet all of the clause's
hypotheses together, at the ends of their ranges. -/

/-- The hypotheses of the statements about an instruction of one operand: depth 1, depth 1024, and an underflow. -/
abbrev UnaryMet : Prop :=
  (stackState [7]).stack = 7 :: [] ∧ (stackState [7]).stack.length ≤ 1024 ∧
  (stackState fullStack).stack = 0 :: List.replicate 1023 0 ∧ (stackState fullStack).stack.length ≤ 1024 ∧
  (stackState []).stack.length < 1

/-- Of two operands: depth 2, depth 1024, and an underflow with one word. -/
abbrev BinaryMet : Prop :=
  (stackState [7, 2]).stack = 7 :: 2 :: [] ∧ (stackState [7, 2]).stack.length ≤ 1024 ∧
  (stackState fullStack).stack = 0 :: 0 :: List.replicate 1022 0 ∧ (stackState fullStack).stack.length ≤ 1024 ∧
  (stackState [7]).stack.length < 2

/-- Of three operands. -/
abbrev TernaryMet : Prop :=
  (stackState [7, 2, 3]).stack = 7 :: 2 :: 3 :: [] ∧ (stackState [7, 2, 3]).stack.length ≤ 1024 ∧
  (stackState fullStack).stack = 0 :: 0 :: 0 :: List.replicate 1021 0 ∧ (stackState fullStack).stack.length ≤ 1024 ∧
  (stackState [7, 2]).stack.length < 3

theorem stack_length (n : Nat) : (stackState (List.replicate n 0)).stack.length = n := List.length_replicate

theorem full_length : (stackState fullStack).stack.length = 1024 := stack_length 1024

theorem full_length_le : (stackState fullStack).stack.length ≤ 1024 := Nat.le_of_eq full_length

theorem room_length : (stackState (List.replicate 1023 0)).stack.length < 1024 := by rw [stack_length]; decide

theorem witness_unary : UnaryMet := ⟨rfl, by decide, rfl, full_length_le, by decide⟩
theorem witness_binary : BinaryMet := ⟨rfl, by decide, rfl, full_length_le, by decide⟩
theorem witness_ternary : TernaryMet := ⟨rfl, by decide, rfl, full_length_le, by decide⟩

theorem witness_AddMulSubWrapModulo : BinaryMet := witness_binary
theorem witness_DivModAreUnsigned : BinaryMet := witness_binary

theorem witness_SdivTruncatesTowardZero :
    BinaryMet ∧ (stackState [Word.minNeg, Word.maxValue]).stack = Word.minNeg :: Word.maxValue :: [] ∧
      (stackState [Word.minNeg, Word.maxValue]).stack.length ≤ 1024 := ⟨witness_binary, rfl, by decide⟩

theorem witness_SmodHasSignOfDividend : BinaryMet ∧ (2 : Word) ≠ 0 := ⟨witness_binary, by decide⟩
theorem witness_AddmodMulmodAreExact : TernaryMet := witness_ternary
theorem witness_ExpIsPowerModulo : BinaryMet := witness_binary
theorem witness_DivisionSignTable : (1 : Word) ≠ 0 ∧ Word.maxValue ≠ 0 := by decide
theorem witness_UnsignedComparesPushTruth : BinaryMet ∧ UnaryMet := ⟨witness_binary, witness_unary⟩
theorem witness_SignedComparesFollowSignedValues : BinaryMet := witness_binary
theorem witness_BitwiseLogicBitByBit : BinaryMet ∧ UnaryMet ∧ 255 < 256 := ⟨witness_binary, witness_unary, by decide⟩

/-- ADD, ADDMOD, NOT and BYTE, whose operands are 1, 2 and 3 deep. -/
theorem witness_AluUnitGivesTheResult :
    (decoded [0x01] = some (.add, []) ∧ (arity .add).1 ≤ (stackState [7, 2]).stack.length ∧
      alu (stackState [7, 2]).params.sarMode 0x01 7 2 0 = some 9) ∧
    (decoded [0x08] = some (.addmod, []) ∧ (arity .addmod).1 ≤ (stackState [7, 2, 3]).stack.length ∧
      alu (stackState [7, 2, 3]).params.sarMode 0x08 7 2 3 = some 0) ∧
    (decoded [0x19] = some (.not, []) ∧ (arity .not).1 ≤ (stackState [0]).stack.length ∧
      alu (stackState [0]).params.sarMode 0x19 0 0 0 = some Word.maxValue) ∧
    (decoded [0x1a] = some (.byte, []) ∧ (arity .byte).1 ≤ (stackState [32, 1]).stack.length ∧
      alu (stackState [32, 1]).params.sarMode 0x1a 32 1 0 = some 0 ∧ Instr.add ≠ .byte) := by decide

theorem witness_LogicalShiftsByWholeAmount :
    BinaryMet ∧ (stackState [256, 1]).stack = 256 :: 1 :: [] ∧ 256 ≤ (256 : Word).toNat ∧
      256 ≤ Word.maxValue.toNat := ⟨witness_binary, rfl, by decide, by decide⟩

/-- Both modes, and both signs of the value. -/
theorem witness_SarFollowsItsMode :
    BinaryMet ∧ (stackState [1, 7]).params.sarMode = .trueAsr ∧
      ({ stackState [1, Word.minNeg] with params := ⟨none, 0, .referenceFlip⟩ } : State).params.sarMode = .referenceFlip ∧
      Word.minNeg.toInt < 0 ∧ ¬ (7 : Word).toInt < 0 :=
  ⟨witness_binary, rfl, rfl, by decide, by decide⟩

theorem witness_SarModesDifferExactly :
    Word.maxValue.toInt < 0 ∧ Word.maxValue.toInt.natAbs % 2 ^ (1 : Word).toNat ≠ 0 ∧
      Word.minNeg.toInt < 0 ∧ 256 ≤ (256 : Word).toNat := by decide

theorem witness_ByteCountsFromMostSignificant :
    BinaryMet ∧ ¬ 32 ≤ (31 : Word).toNat ∧ 32 ≤ (32 : Word).toNat := ⟨witness_binary, by decide, by decide⟩

/-- The last admitted offset and the first that passes the limit of 64, and the unbounded memory. -/
theorem witness_MloadReadsBigEndian :
    UnaryMet ∧ Admitted (stackState [32]) (32 : Word).toNat 32 ∧ PassesLimit (stackState [33]) (33 : Word).toNat 32 ∧
      Admitted { stackState [] with params := ⟨none, 0, .trueAsr⟩ } Word.maxValue.toNat 32 :=
  ⟨witness_unary, by simp [Admitted, stackState, runState], ⟨64, rfl, by decide⟩, by simp [Admitted]⟩

theorem witness_MstoreWritesBigEndian :
    BinaryMet ∧ Admitted (stackState [32, 1]) (32 : Word).toNat 32 ∧
      PassesLimit (stackState [33, 1]) (33 : Word).toNat 32 ∧ 31 < 32 ∧ (31 < (32 : Word).toNat ∧ 32 + 32 ≤ 64) :=
  ⟨witness_binary, by simp [Admitted, stackState, runState], ⟨64, rfl, by decide⟩, by decide, by decide⟩

theorem witness_MstoreEightWritesLowByte :
    BinaryMet ∧ Admitted (stackState [63, 1]) (63 : Word).toNat 1 ∧
      PassesLimit (stackState [64, 1]) (64 : Word).toNat 1 ∧ 62 ≠ (63 : Word).toNat :=
  ⟨witness_binary, by simp [Admitted, stackState, runState], ⟨64, rfl, by decide⟩, by decide⟩

/-- A byte stored at both ends of the word loaded; a word loaded 1 and 31 bytes after one stored. -/
theorem witness_OverlappingStoreThenLoad :
    (stackState [32, 0x1234, 1]).stack = 32 :: 0x1234 :: 1 :: [] ∧ (stackState [32, 0x1234, 1]).stack.length ≤ 1024 ∧
      Admitted (stackState [32, 0x1234, 1]) (32 : Word).toNat 1 ∧
      Admitted (stackState [32, 0x1234, 1]) (1 : Word).toNat 32 ∧
      (1 : Word).toNat ≤ (1 : Word).toNat ∧ (1 : Word).toNat ≤ (32 : Word).toNat ∧
      (32 : Word).toNat ≤ (1 : Word).toNat + 31 ∧
      (stackState [0, 7, 31]).stack = 0 :: 7 :: 31 :: [] ∧ Admitted (stackState [0, 7, 31]) (0 : Word).toNat 32 ∧
      Admitted (stackState [0, 7, 31]) (31 : Word).toNat 32 ∧ (31 : Word).toNat = (0 : Word).toNat + 31 ∧
      Admitted (stackState [0, 7, 1]) (1 : Word).toNat 32 ∧ (1 : Word).toNat = (0 : Word).toNat + 1 :=
  ⟨rfl, by decide, by simp [Admitted, stackState, runState], by simp [Admitted, stackState, runState], by decide,
    by decide, by decide, rfl, by simp [Admitted, stackState, runState], by simp [Admitted, stackState, runState],
    by decide, by simp [Admitted, stackState, runState], by decide⟩

theorem witness_PopDiscardsTop : UnaryMet := witness_unary

/-- Offset 0 is a JUMPDEST of the code, offset 1 and 2^256 - 1 are not. -/
theorem witness_JumpNeedsJumpdest :
    UnaryMet ∧ (stackState [0]).stack = 0 :: [] ∧ (0 : Word).toNat ∈ (stackState [0]).jd ∧
      (1 : Word).toNat ∉ (stackState [1]).jd ∧ Word.maxValue.toNat ∉ (stackState [Word.maxValue]).jd :=
  ⟨witness_unary, rfl, by decide, by decide, by decide⟩

theorem witness_JumpiTestsCondition :
    BinaryMet ∧ (stackState [0, 1]).stack = 0 :: 1 :: [] ∧ (1 : Word) ≠ 0 ∧ (0 : Word).toNat ∈ (stackState [0, 1]).jd ∧
      (1 : Word).toNat ∉ (stackState [1, 1]).jd ∧ (stackState [9, 0]).stack = 9 :: 0 :: [] :=
  ⟨witness_binary, rfl, by decide, by decide, by decide, rfl⟩

theorem witness_PcPushesOwnOffset :
    (stackState []).pc = 0 + 1 ∧ (stackState []).stack.length < 1024 ∧ (stackState fullStack).pc = 0 + 1 ∧
      (stackState fullStack).stack.length = 1024 :=
  ⟨rfl, by decide, rfl, full_length⟩

theorem witness_GasPushesFreeDraw :
    (stackState (List.replicate 1023 0)).stack.length < 1024 ∧ (stackState fullStack).stack.length = 1024 :=
  ⟨room_length, full_length⟩

/-- PUSH1 and PUSH32, each too short and full, on a full stack and on one with room. -/
theorem witness_PushMeaningOnImmediate :
    (1, 0x60, Instr.push1) ∈ pushMembers ∧ ([] : List Byte).length < 1 ∧ ([0xff] : List Byte).length = 1 ∧
    (32, 0x7f, Instr.push32) ∈ pushMembers ∧ (countUp 31).length < 32 ∧ (countUp 32).length = 32 ∧
    (stackState fullStack).stack.length = 1024 ∧ (stackState (List.replicate 1023 0)).stack.length < 1024 :=
  ⟨by simp [pushMembers, pushMembersA], by decide, by decide, by simp [pushMembers, pushMembersD], by decide, by decide,
    full_length, room_length⟩

/-- PUSH2 with one byte missing, and with its two bytes at the end of the code. -/
theorem witness_PushTakesBytesFromCode :
    (2, 0x61, Instr.push2) ∈ pushMembers ∧
    ((runState [0x61, 0x01] 0 []).phase = .running ∧ (runState [0x61, 0x01] 0 []).code[0]? = some 0x61 ∧
      (runState [0x61, 0x01] 0 []).code.length < 0 + 1 + 2) ∧
    ((runState [0x61, 0x01, 0x02] 0 fullStack).code[0]? = some 0x61 ∧
      0 + 1 + 2 ≤ (runState [0x61, 0x01, 0x02] 0 fullStack).code.length ∧
      (runState [0x61, 0x01, 0x02] 0 fullStack).stack.length = 1024) ∧
    (0 + 1 + 2 ≤ (runState [0x61, 0x01, 0x02] 0 []).code.length ∧
      (runState [0x61, 0x01, 0x02] 0 []).stack.length < 1024 ∧ 1 < 2) :=
  ⟨by simp [pushMembers, pushMembersA], ⟨rfl, rfl, by decide⟩, ⟨rfl, by decide, full_length⟩,
    by decide, by decide, by decide⟩

theorem witness_DupCopiesEntry :
    (1, 0x80, Instr.dup1) ∈ dupMembers ∧ (16, 0x8f, Instr.dup16) ∈ dupMembers ∧
    (stackState [7]).stack[1 - 1]? = some 7 ∧ (stackState (List.replicate 16 7)).stack[16 - 1]? = some 7 ∧
    (stackState (List.replicate 16 7)).stack.length < 1024 ∧ (stackState (List.replicate 15 7)).stack.length < 16 ∧
    (stackState fullStack).stack[16 - 1]? = some 0 ∧ (stackState fullStack).stack.length = 1024 :=
  ⟨by simp [dupMembers, dupMembersA], by simp [dupMembers, dupMembersB], rfl, rfl, by decide, by decide, rfl,
    full_length⟩

theorem witness_SwapExchangesEntries :
    (1, 0x90, Instr.swap1) ∈ swapMembers ∧ (16, 0x9f, Instr.swap16) ∈ swapMembers ∧
    (stackState [1, 2]).stack[0]? = some 1 ∧ (stackState [1, 2]).stack[1]? = some 2 ∧
    (stackState (1 :: List.replicate 16 2)).stack[0]? = some 1 ∧
    (stackState (1 :: List.replicate 16 2)).stack[16]? = some 2 ∧
    (stackState (List.replicate 16 2)).stack.length < 16 + 1 :=
  ⟨by simp [swapMembers, swapMembersA], by simp [swapMembers, swapMembersB], rfl, rfl, rfl, rfl, by decide⟩

/-- The end of the code, an unknown byte and an ADD. -/
theorem witness_StepRunsDecodedInstruction :
    ((runState [] 0 []).phase = .running ∧ (runState [] 0 []).code.length ≤ (runState [] 0 []).pc) ∧
    ((runState [0x0c] 0 []).code.drop 0 = 0x0c :: [] ∧ decode [0x0c] = .error (.unknownOpcode 0x0c)) ∧
    (decode ((runState [0x00, 0x01] 1 []).code.drop 1) = .ok (.add, [])) := ⟨⟨rfl, by decide⟩, ⟨rfl, rfl⟩, rfl⟩

theorem witness_UnknownBytesAreFatal :
    ((runState [0x0c] 0 [1]).phase = .running ∧ (runState [0x0c] 0 [1]).code[0]? = some 0x0c ∧ Unknown 0x0c) ∧
    Unknown 0x0b ∧ Unknown 0x4f ∧ Unknown 0xfd ∧ Unknown 0xff ∧ ¬ Unknown 0xfe ∧ ¬ Unknown 0x00 :=
  ⟨⟨rfl, rfl, by unfold Unknown; decide⟩, by unfold Unknown; decide, by unfold Unknown; decide,
    by unfold Unknown; decide, by unfold Unknown; decide, by unfold Unknown; decide, by unfold Unknown; decide⟩

theorem witness_DecodeOfEncode : (Instr.push32 (countUp 32)).wellFormed = true ∧ Instr.sar.wellFormed = true := by decide

/-- A whole PUSH2 and one that the code cuts short. -/
theorem witness_EncodeOfDecode :
    decode [0x61, 0x01, 0x02] = .ok (.push2 [0x01, 0x02], []) ∧ decode [0x61, 0x01] = .ok (.push2 [0x01], []) :=
  ⟨rfl, rfl⟩

theorem witness_EveryInstructionUnderflows :
    (stackState (List.replicate 16 0)).stack.length < (arity .swap16).1 ∧ (stackState []).stack.length < (arity .pop).1 := by
  decide

theorem witness_EveryInstructionOverflows :
    Instr.dup16.wellFormed = true ∧ (arity .dup16).1 ≤ (stackState fullStack).stack.length ∧
    (stackState fullStack).stack.length ≤ 1024 ∧
    1024 < (stackState fullStack).stack.length - (arity .dup16).1 + (arity .dup16).2 ∧
    1024 < (stackState fullStack).stack.length - (arity .pc).1 + (arity .pc).2 := by
  rw [full_length]
  decide

/-- An instruction after which the run goes on: its hypotheses are those of the four statements below. -/
theorem witness_run_goes_on :
    (stackState [1, 2]).phase = .running ∧ exec .swap1 (stackState [1, 2]) = .next (stackState [2, 1]) ∧
      (stackState [2, 1]).phase = .running := ⟨rfl, rfl, rfl⟩

theorem witness_DepthChangesByArity :
    (stackState [1, 2]).phase = .running ∧ exec .swap1 (stackState [1, 2]) = .next (stackState [2, 1]) ∧
      (stackState [2, 1]).phase = .running := witness_run_goes_on

theorem witness_DeepStackIsUntouched :
    (stackState [1, 2]).phase = .running ∧ exec .swap1 (stackState [1, 2]) = .next (stackState [2, 1]) ∧
      (stackState [2, 1]).phase = .running := witness_run_goes_on

theorem witness_OnlyJumpsRedirectPc :
    ((stackState [1, 2]).phase = .running ∧ exec .swap1 (stackState [1, 2]) = .next (stackState [2, 1]) ∧
      (stackState [2, 1]).phase = .running) ∧
    exec .jump (stackState [0]) = .next { stackState [] with pc := 0 } := ⟨witness_run_goes_on, rfl⟩

/-- One instruction that goes on, one that ends the run. -/
theorem witness_EveryEndIsPrecise :
    (stackState [1, 2]).phase = .running ∧ exec .swap1 (stackState [1, 2]) = .next (stackState [2, 1]) ∧
      exec .invalid (stackState [1]) = .next (endRun (.exit 1) (stackState [1])) := ⟨rfl, rfl, rfl⟩

/-- An instruction of each kind the frame tells apart: one that stores nothing, MLOAD and GAS. -/
theorem witness_FrameOfEveryInstruction :
    exec .swap1 (stackState [1, 2]) = .next (stackState [2, 1]) ∧
    (nextOf (exec .mload (stackState [0]))).isSome = true ∧ (nextOf (exec .gas (stackState []))).isSome = true ∧
    Instr.swap1 ≠ .mstore ∧ Instr.swap1 ≠ .mstore8 ∧ Instr.swap1 ≠ .mload ∧ Instr.swap1 ≠ .gas :=
  ⟨rfl, rfl, rfl, by decide, by decide, by decide, by decide⟩

/-- The longest bytecode that CODE_MAX = 100 allows, and the empty one. -/
theorem witness_StartOfRunResets :
    (restState [List.replicate 100 0x01]).phase ≠ .running ∧
    (restState [List.replicate 100 0x01]).starts = List.replicate 100 0x01 :: [] ∧
    (List.replicate 100 (0x01 : Byte)).length ≤ (restState [List.replicate 100 0x01]).params.codeMax ∧
    ([] : List Byte).length ≤ (restState [[]]).params.codeMax :=
  ⟨by decide, rfl, by decide, by decide⟩

/-- A start that CODE_MAX = 100 allows not to run: the right-hand side can hold. -/
theorem witness_OnlyTooLongCodeIsRefused :
    (restState [List.replicate 101 0x01]).phase ≠ .running ∧
    (restState [List.replicate 101 0x01]).starts = List.replicate 101 0x01 :: [] ∧
    (restState [List.replicate 101 0x01]).params.codeMax < (List.replicate 101 (0x01 : Byte)).length :=
  ⟨by decide, rfl, by decide⟩

theorem witness_IdleBlockWaits : State.reset.phase ≠ .running ∧ State.reset.starts = [] := ⟨by decide, rfl⟩

theorem witness_MsizeNeverDecreasesInRun :
    (runState [0x51] 0 [1]).phase = .running ∧
    step (runState [0x51] 0 [1]) = .next { runState [0x51] 1 [0] with msize := 64 } := ⟨rfl, rfl⟩

/-- A state in the middle of a run meets the invariant, and a step from it goes on. -/
theorem witness_StepKeepsInvariant :
    (runState [0x01] 0 [1, 2]).Inv ∧ step (runState [0x01] 0 [1, 2]) = .next (runState [0x01] 1 [3]) := by
  refine ⟨?_, rfl⟩
  constructor <;> simp [runState, Params.Valid, State.LatchAgrees, Result.powerOn, Memory.wf, Memory.wfFrom]

/-- Two states that differ in RES and in the diagnostic trace alone. -/
theorem witness_StepIgnoresOldResult :
    SameRun (stackState [1]) { stackState [1] with
      res := { Result.powerOn with code := 1 }, diag := [⟨.error, .fatal, 0⟩] } := by
  constructor <;> rfl

/-- A block fresh from power-on and one that an earlier run has left with a result and memory. -/
theorem witness_RunsLeaveNoResidue :
    let s := restState [[0x5b]]
    let t : State := { s with
      phase := .fatal .memoryLimit, mem := [(0, 0xff)], msize := 32, jd := [7], code := [0x51]
      res := { Result.powerOn with valid := true, outcome := .fatal, kind := some .memoryLimit } }
    s.phase ≠ .running ∧ t.phase ≠ .running ∧ s.params = t.params ∧ s.starts = t.starts ∧ s.starts ≠ [] ∧
      s.gasDraws = t.gasDraws := by decide

/-- A Running block, and an instruction performed on it that keeps the code. -/
theorem witness_StepTakesInputsAsArguments :
    (stackState [1, 2]).phase = .running ∧
    perform (fun _ => swapEntry 1) (stackState [1, 2]) = .next (stackState [2, 1]) := ⟨rfl, rfl⟩

end Sys2Proof.Tests
end

section
/-! SUPPORT. The word utilities of 00_scope.md R15 in the library's terms: `flipSign` is the negation of `BitVec`,
`isNegative` the sign of the signed reading, and the ALU's SUB is subtraction. -/

namespace Sys2Proof.Machine

/-- The library's identity of two's complement, `-v = ~v + 1`. -/
@[simp] theorem flipSign_eq_neg (v : Word) : flipSign v = -v := (BitVec.neg_eq_not_add v).symm

theorem isNegative_eq_msb (v : Word) : isNegative v = v.msb := (BitVec.msb_eq_getLsbD_last v).symm

theorem isNegative_iff_toInt_neg (v : Word) : isNegative v = true ↔ v.toInt < 0 := by
  rw [isNegative_eq_msb, BitVec.msb_eq_toInt, decide_eq_true_iff]

theorem flipSign_eq_ofNat_not_add_one (v : Word) : flipSign v = BitVec.ofNat 256 ((~~~v).toNat + 1) := by
  rw [BitVec.ofNat_add, BitVec.ofNat_toNat, BitVec.setWidth_eq]
  rfl

/-- This is how the library defines the negation of a bit vector. -/
theorem flipSign_eq_ofNat_sub (v : Word) : flipSign v = BitVec.ofNat 256 (2 ^ 256 - v.toNat) :=
  flipSign_eq_neg v

theorem flipSign_eq_ofInt_neg (v : Word) : flipSign v = BitVec.ofInt 256 (-v.toInt) := by
  rw [BitVec.ofInt_neg, BitVec.ofInt_toInt, flipSign_eq_neg]

theorem flipSign_flipSign (v : Word) : flipSign (flipSign v) = v := by
  rw [flipSign_eq_neg, flipSign_eq_neg, BitVec.neg_neg]

/-- R15: the least signed value has no positive counterpart, so it flips to itself. -/
theorem flipSign_minNeg : flipSign Word.minNeg = Word.minNeg := by decide

/-- The unit's row of opcode 0x03 (R131). -/
theorem alu_sub (m : SarMode) (a b c : Word) : alu m 0x03 a b c = some (a - b) := rfl

/-- R133: SUB from 0 is the ALU's negation. -/
theorem alu_sub_from_zero (m : SarMode) (x c : Word) : alu m 0x03 0 x c = some (flipSign x) := by
  rw [alu_sub, flipSign_eq_neg]
  exact congrArg some (BitVec.zero_sub x)

end Sys2Proof.Machine
end

section

open Sys2Proof Sys2Proof.Machine

namespace Sys2Proof.Proofs

/-- Settles O7: `flipSign` is the library's negation, from which each clause follows. -/
theorem flipSignNegates : Obligations.FlipSignNegates :=
  ⟨fun _ => Iff.rfl, isNegative_iff_toInt_neg, flipSign_eq_ofNat_not_add_one, flipSign_eq_ofNat_sub,
    flipSign_eq_ofInt_neg, flipSign_flipSign, alu_sub_from_zero, by decide, flipSign_minNeg⟩

end Sys2Proof.Proofs
end

section
/-! SUPPORT. What an instruction can answer to the block, said once: `Block.Answers`, proved for each operand form of
Machine/Operands.lean and from these for every instruction (`exec_performs_answering`, `exec_answers`). -/

namespace Sys2Proof.Machine

/-! ## What an instruction can answer -/

/-- How the block `b` may stand as `b'` after an instruction with `m` immediate bytes that lets the run go on.
Where a form leaves a field as it was, its proof need not say so. -/
structure Block.GoesOn (m : Nat) (b b' : Block) : Prop where
  phase : b'.phase = b.phase := by rfl
  jd : b'.jd = b.jd := by rfl
  res : b'.res = b.res := by rfl
  /-- At most past the immediate bytes, or a jump (R37, R205). -/
  pc : b'.pc ≤ b.pc + m ∨ b'.pc ∈ b.jd := by exact .inl (Nat.le_add_right _ _)
  mem : b'.mem = b.mem ∨ (∃ addr n v, b'.mem = memWrite b.mem addr n v) := by exact .inl rfl
  msize : b'.msize = b.msize ∨ (∃ addr n, b'.msize = extent b.msize addr n) := by exact .inl rfl
  /-- Nothing below entry 16 is reached (R32). -/
  stack : ∃ (k : Nat) (new : List Word), k ≤ 17 ∧ new.length ≤ 17 ∧ b'.stack = new ++ b.stack.drop k
  depth : b.stack.length ≤ 1024 → b'.stack.length ≤ 1024

/-- Everything an instruction with `m` immediate bytes can answer to the block `b`. -/
inductive Block.Answers (m : Nat) (b : Block) : Reaction → Prop where
  | exits (code : Nat) (h : code ≤ 1) : Answers m b (finish (.exit code) b)
  | fails (kind : FatalKind) : Answers m b (finish (.fatal kind) b)
  | goesOn (r : Reaction) (h : b.GoesOn m r.block) : Answers m b r

section Forms
variable {m : Nat} {b : Block}

/-- Replacing the top of the stack is going on, where it respects the depth. -/
theorem Block.GoesOn.replaceTop (k : Nat) (new : List Word) (hk : k ≤ 17) (hnew : new.length ≤ 17)
    (hd : b.stack.length ≤ 1024 → new.length + (b.stack.length - k) ≤ 1024) :
    b.GoesOn m (b.replaceTop k new) where
  stack := ⟨k, new, hk, hnew, rfl⟩
  depth := by simpa using hd

/-- Dropping operands only makes room. -/
theorem Block.GoesOn.drop (k : Nat) (hk : k ≤ 17) : b.GoesOn m (b.replaceTop k []) :=
  .replaceTop k [] hk (by simp) (by simp; omega)

theorem standard_answers (k p : Nat) (body : Block → Reaction)
    (h : k ≤ b.stack.length → b.stack.length - k + p ≤ 1024 → b.Answers m (body b)) :
    b.Answers m (standard k p body b) := by
  obtain ⟨-, e⟩ | ⟨-, -, e⟩ | ⟨hk, hp, e⟩ := standard_cases k p body b <;> rw [e]
  · exact .fails _
  · exact .fails _
  · exact h hk hp

/-- The standard sequencing with a body that replaces the k operands by p results, whatever goes out beside. -/
theorem standard_replaceTop_answers (k p : Nat) (body : Block → Reaction) (new : List Word)
    (hbody : (body b).block = b.replaceTop k new) (hk : k ≤ 17) (hp : p ≤ 17) (hnew : new.length = p) :
    b.Answers m (standard k p body b) := by
  refine standard_answers k p body fun _ hroom => .goesOn _ ?_
  rw [hbody]
  exact .replaceTop k new hk (by omega) (by omega)

theorem aluUnary_answers (f : Word → Word) : b.Answers m (aluUnary f b) :=
  standard_replaceTop_answers 1 1 _ [_] rfl (by decide) (by decide) rfl

theorem aluBinary_answers (f : Word → Word → Word) : b.Answers m (aluBinary f b) :=
  standard_replaceTop_answers 2 1 _ [_] rfl (by decide) (by decide) rfl

theorem aluTernary_answers (f : Word → Word → Word → Word) : b.Answers m (aluTernary f b) :=
  standard_replaceTop_answers 3 1 _ [_] rfl (by decide) (by decide) rfl

theorem pushWord_answers (v : Block → Word) : b.Answers m (pushWord v b) :=
  standard_replaceTop_answers 0 1 _ [_] rfl (by decide) (by decide) rfl

/-- DUPn checks the arity (n, n+1) but pushes one word. -/
theorem dupEntry_answers (n : Nat) : b.Answers m (dupEntry n b) :=
  standard_answers n (n + 1) _ fun _ _ => .goesOn _ (.replaceTop 0 [_] (by decide) (by simp) (by simp; omega))

/-- An exchange with entry n replaces the top n + 1 entries. -/
theorem Block.exchange_stack_eq_append (n : Nat) :
    (b.exchange n).stack = ((b.exchange n).stack.take (n + 1)) ++ b.stack.drop (n + 1) := by
  conv_lhs => rw [← List.take_append_drop (n + 1) (b.exchange n).stack]
  simp [List.drop_set]

theorem swapEntry_answers (n : Nat) (hn : n ≤ 16) : b.Answers m (swapEntry n b) := by
  obtain ⟨-, e⟩ | ⟨-, e⟩ := swapEntry_cases n b <;> rw [e]
  · exact .fails _
  · exact .goesOn _
      { stack := ⟨n + 1, _, by omega, by simp; omega, b.exchange_stack_eq_append n⟩
        depth := by simp }

theorem loadWord_answers (n : Nat) (inp : Inputs) : b.Answers m (loadWord n inp b) := by
  obtain ⟨-, e⟩ | ⟨-, e⟩ | ⟨-, -, -, e⟩ | ⟨hk, -, -, e⟩ := loadWord_cases n inp b <;> rw [e]
  · exact .fails _
  · exact .fails _
  · exact .fails _
  · exact .goesOn _
      { msize := .inr ⟨_, _, rfl⟩
        stack := ⟨1, [_], by decide, by simp, rfl⟩
        depth := by simp; omega }

theorem storeWord_answers (n : Nat) (inp : Inputs) : b.Answers m (storeWord n inp b) := by
  obtain ⟨-, e⟩ | ⟨-, e⟩ | ⟨-, -, -, e⟩ | ⟨-, -, -, e⟩ := storeWord_cases n inp b <;> rw [e]
  · exact .fails _
  · exact .fails _
  · exact .fails _
  · exact .goesOn _
      { mem := .inr ⟨_, _, _, rfl⟩
        msize := .inr ⟨_, _, rfl⟩
        stack := ⟨2, [], by decide, by simp, rfl⟩
        depth := by simp; omega }

/-- A PUSHn that goes on has all its n bytes, so pc passes no more bytes than the instruction carries. -/
theorem pushImmediate_answers (n : Nat) (imm : List Byte) : b.Answers imm.length (pushImmediate n imm b) := by
  obtain ⟨-, e⟩ | ⟨-, -, e⟩ | ⟨hn, hroom, e⟩ := pushImmediate_cases n imm b <;> rw [e]
  · exact .fails _
  · exact .fails _
  · exact .goesOn _
      { pc := .inl (Nat.add_le_add_left hn _)
        stack := ⟨0, [_], by decide, by simp, rfl⟩
        depth := fun _ => hroom }

theorem jumpTaken_answers (k : Nat) (hk : k ≤ 17) : b.Answers m (jumpTaken k b) := by
  obtain ⟨hjd, e⟩ | ⟨-, e⟩ := jumpTaken_cases k b <;> rw [e]
  · exact .goesOn _
      { pc := .inr hjd
        stack := ⟨k, [], hk, by simp, rfl⟩
        depth := by simp; omega }
  · exact .exits 1 (by decide)

theorem ite_answers (c : Prop) [Decidable c] {r r' : Reaction} (h : b.Answers m r) (h' : b.Answers m r') :
    b.Answers m (if c then r else r') := by
  split
  · exact h
  · exact h'

end Forms

/-! ## Every instruction -/

/-- How many bytes an instruction carries after its opcode byte. -/
def immediateCount (i : Instr) : Nat := (encode i).length - 1

/-- Every instruction performs one function of the inputs and the block (R50), whose answers are those of `Answers`. -/
theorem exec_performs_answering (i : Instr) : ∃ f : Inputs → Block → Reaction,
    (∀ s, exec i s = perform f s) ∧ ∀ inp (b : Block), b.Answers (immediateCount i) (f inp b) := by
  cases i with
  | stop => exact ⟨fun _ => exitWith 0, fun _ => rfl, fun _ _ => .exits 0 (by decide)⟩
  | invalid => exact ⟨fun _ => exitWith 1, fun _ => rfl, fun _ _ => .exits 1 (by decide)⟩
  | iszero | not => exact ⟨fun _ => aluUnary _, fun _ => rfl, fun _ _ => aluUnary_answers _⟩
  | add | mul | sub | div | sdiv | mod | smod | exp | lt | gt | slt | sgt | eq | and | or | xor | shl | shr =>
    exact ⟨fun _ => aluBinary _, fun _ => rfl, fun _ _ => aluBinary_answers _⟩
  | sar => exact ⟨fun inp => aluBinary (aluSar inp.params.sarMode), fun _ => rfl, fun _ _ => aluBinary_answers _⟩
  | addmod | mulmod => exact ⟨fun _ => aluTernary _, fun _ => rfl, fun _ _ => aluTernary_answers _⟩
  | byte =>
    exact ⟨fun _ => standard 2 1 _, fun _ => rfl,
      fun _ _ => standard_replaceTop_answers 2 1 _ [_] rfl (by decide) (by decide) rfl⟩
  | pop =>
    exact ⟨fun _ => standard 1 0 _, fun _ => rfl,
      fun _ _ => standard_replaceTop_answers 1 0 _ [] rfl (by decide) (by decide) rfl⟩
  | gas =>
    exact ⟨fun inp => standard 0 1 fun b => { goOn (b.replaceTop 0 [inp.gasIn]) with readsGas := true }, fun _ => rfl,
      fun _ _ => standard_replaceTop_answers 0 1 _ [_] rfl (by decide) (by decide) rfl⟩
  | pc => exact ⟨fun _ => pushWord _, fun _ => rfl, fun _ _ => pushWord_answers _⟩
  | jumpdest => exact ⟨fun _ => goOn, fun _ => rfl, fun _ b => .goesOn (goOn b) (.drop 0 (by decide))⟩
  | mload => exact ⟨loadWord 32, fun _ => rfl, fun inp _ => loadWord_answers 32 inp⟩
  | mstore => exact ⟨storeWord 32, fun _ => rfl, fun inp _ => storeWord_answers 32 inp⟩
  | mstore8 => exact ⟨storeWord 1, fun _ => rfl, fun inp _ => storeWord_answers 1 inp⟩
  | jump =>
    exact ⟨fun _ b => if b.depth < 1 then raise .stackUnderflow b else jumpTaken 1 b, fun _ => rfl,
      fun _ _ => ite_answers _ (.fails _) (jumpTaken_answers 1 (by decide))⟩
  | jumpi =>
    exact ⟨fun _ b => if b.depth < 2 then raise .stackUnderflow b
        else if b.peek 1 ≠ 0 then jumpTaken 2 b else goOn (b.replaceTop 2 []), fun _ => rfl,
      fun _ b => ite_answers _ (.fails _)
        (ite_answers _ (jumpTaken_answers 2 (by decide)) (.goesOn (goOn _) (.drop 2 (by decide))))⟩
  | push1 imm | push2 imm | push3 imm | push4 imm | push5 imm | push6 imm | push7 imm | push8 imm | push9 imm
  | push10 imm | push11 imm | push12 imm | push13 imm | push14 imm | push15 imm | push16 imm | push17 imm
  | push18 imm | push19 imm | push20 imm | push21 imm | push22 imm | push23 imm | push24 imm | push25 imm
  | push26 imm | push27 imm | push28 imm | push29 imm | push30 imm | push31 imm | push32 imm =>
    exact ⟨fun _ => pushImmediate _ imm, fun _ => rfl, fun _ _ => pushImmediate_answers _ imm⟩
  | dup1 | dup2 | dup3 | dup4 | dup5 | dup6 | dup7 | dup8 | dup9 | dup10 | dup11 | dup12 | dup13 | dup14 | dup15
  | dup16 => exact ⟨fun _ => dupEntry _, fun _ => rfl, fun _ _ => dupEntry_answers _⟩
  | swap1 | swap2 | swap3 | swap4 | swap5 | swap6 | swap7 | swap8 | swap9 | swap10 | swap11 | swap12 | swap13
  | swap14 | swap15 | swap16 =>
    exact ⟨fun _ => swapEntry _, fun _ => rfl, fun _ _ => swapEntry_answers _ (by decide)⟩

theorem exec_answers (i : Instr) (s : State) :
    ∃ r, exec i s = .next (s.after r) ∧ s.toBlock.Answers (immediateCount i) r := by
  obtain ⟨f, hf, hr⟩ := exec_performs_answering i
  exact ⟨_, hf s, hr _ _⟩

end Sys2Proof.Machine
end

section
/-! SUPPORT. What a step of a Running block can do: what its fetch finds within the code, and what the instruction
fetched answers (`runStep_cases`). Also where the jump-destination scan finds its offsets. -/

namespace Sys2Proof.Machine

/-! ## What a fetch finds -/

theorem immediateCount_single : ∀ p ∈ singleOpcodes, immediateCount p.2 = 0 := by decide

theorem immediateCount_dup : ∀ i ∈ dupFamily, immediateCount i = 0 := by decide

theorem immediateCount_swap : ∀ i ∈ swapFamily, immediateCount i = 0 := by decide

theorem immediateCount_push (imm : List Byte) : ∀ push ∈ pushFamily, immediateCount (push imm) = imm.length := by
  simp [pushFamily, immediateCount, encode]

/-- The decoder takes the immediate bytes of an instruction from those after the opcode byte (R94). -/
theorem immediateCount_le_of_decode {op : Byte} {bytes rest : List Byte} {i : Instr}
    (h : decode (op :: bytes) = .ok (i, rest)) : immediateCount i ≤ bytes.length := by
  unfold decode at h
  split at h
  · cases h
  · rename_i op' bytes' heq
    cases heq
    split at h
    · -- a single opcode
      rename_i hi
      cases h
      obtain ⟨before, after, hl, -⟩ := List.lookup_eq_some_iff.mp hi
      simp [immediateCount_single (op, i) (by rw [hl]; simp)]
    · split_ifs at h
      · -- PUSHn
        dsimp only at h
        split at h
        · rename_i hpush
          cases h
          rw [immediateCount_push _ _ (List.mem_of_getElem? hpush)]
          exact List.length_take_le' ..
        · cases h
      · -- DUPn
        split at h
        · rename_i hi
          cases h
          simp [immediateCount_dup _ (List.mem_of_getElem? hi)]
        · cases h
      · -- SWAPn
        split at h
        · rename_i hi
          cases h
          simp [immediateCount_swap _ (List.mem_of_getElem? hi)]
        · cases h

/-- Everything a fetch can find, with the bounds its finding gives. -/
theorem fetch_cases (code : List Byte) (b : Block) :
    fetch code b = .endOfCode ∨
    (b.pc + 1 ≤ code.length ∧ fetch code b = .unknown (b.setPc (b.pc + 1))) ∨
    ∃ i, b.pc + 1 + immediateCount i ≤ code.length ∧ fetch code b = .instr i (b.setPc (b.pc + 1)) := by
  unfold fetch Block.ahead
  rcases hc : code.drop b.pc with _ | ⟨op, bytes⟩
  · exact .inl rfl
  · have hlen : code.length - b.pc = bytes.length + 1 := by rw [← List.length_drop, hc, List.length_cons]
    split
    · exact .inl rfl
    · exact .inr (.inl ⟨by omega, rfl⟩)
    · rename_i i rest hd
      have := immediateCount_le_of_decode hd
      exact .inr (.inr ⟨i, by omega, rfl⟩)

/-! ## The step of a Running block -/

@[simp] theorem State.inputs_code (s : State) : s.inputs.code = s.code := rfl

/-- The step of a Running block (R93) as one function of its inputs and the block, given the meanings of the
instructions. -/
def reactionOf (meaning : Instr → Inputs → Block → Reaction) (inp : Inputs) (b : Block) : Reaction :=
  match fetch inp.code b with
  | .endOfCode => exitWith 0 b
  | .unknown b' => raise .unknownOpcode b'
  | .instr i b' => meaning i inp b'

theorem runStep_eq_perform_reactionOf (meaning : Instr → Inputs → Block → Reaction)
    (h : ∀ i s, exec i s = perform (meaning i) s) (s : State) : runStep s = perform (reactionOf meaning) s := by
  unfold runStep perform reactionOf
  rw [State.inputs_code]
  cases fetch s.code s.toBlock with
  | endOfCode => rfl
  | unknown b => rfl
  | instr i b => exact h i _

/-- Everything the step of a Running block can do: an answer to the block whose pc the fetch has moved to `p`, with the
`m` immediate bytes from there still within the code. -/
theorem runStep_cases (s : State) : ∃ p m r, runStep s = .next (s.after r) ∧ (s.toBlock.setPc p).Answers m r ∧
    (s.pc ≤ s.code.length → p + m ≤ s.code.length) := by
  unfold runStep
  obtain hf | ⟨hp, hf⟩ | ⟨i, hp, hf⟩ := fetch_cases s.code s.toBlock <;> rw [hf]
  · exact ⟨s.pc, 0, _, rfl, .exits 0 (by decide), id⟩
  · exact ⟨s.pc + 1, 0, _, rfl, .fails .unknownOpcode, fun _ => hp⟩
  · obtain ⟨r, hr, ha⟩ := exec_answers i { s with toBlock := s.toBlock.setPc (s.pc + 1) }
    exact ⟨s.pc + 1, immediateCount i, r, hr, ha, fun _ => hp⟩

/-! ## The jump-destination scan -/

theorem scanFrom_lt (c skip : Nat) (bytes : List Byte) : ∀ d ∈ scanFrom c skip bytes, d < c + bytes.length := by
  induction bytes generalizing c skip with
  | nil => simp [scanFrom]
  | cons op rest ih =>
    have later (k d) (hd : d ∈ scanFrom (c + 1) k rest) : d < c + (op :: rest).length := by
      have := ih (c + 1) k d hd
      simp only [List.length_cons]
      omega
    cases skip with
    | succ k => exact later k
    | zero =>
      unfold scanFrom
      split
      · rw [List.forall_mem_cons]
        exact ⟨by simp, later 0⟩
      · exact later _

/-- Every jump destination is an offset of the code (R44). -/
theorem lt_length_of_mem_scan {code : List Byte} {d : Nat} (h : d ∈ scan code) : d < code.length := by
  simpa using scanFrom_lt 0 0 code d h

end Sys2Proof.Machine
end

section
/-! SUPPORT. The invariant of spec 10_state.md R51 (`State.Inv`), read off what a step can do: an answer to a Running
block keeps it, and so does the start of a run. -/

namespace Sys2Proof.Machine

/-! ## What every answer keeps -/

section Kept
variable {m : Nat} {b b' : Block} {r : Reaction}

theorem Block.GoesOn.msize_le (h : b.GoesOn m b') : b.msize ≤ b'.msize := by
  obtain e | ⟨addr, n, e⟩ := h.msize <;> rw [e]
  exact extent_grows _ _ _

theorem Block.GoesOn.msize_multiple (h : b.GoesOn m b') (hb : b.msize % 32 = 0) : b'.msize % 32 = 0 := by
  obtain e | ⟨addr, n, e⟩ := h.msize <;> rw [e]
  · exact hb
  · exact extent_multiple _ _ _ hb

theorem Block.GoesOn.mem_wf (h : b.GoesOn m b') (hb : Memory.wf b.mem = true) : Memory.wf b'.mem = true := by
  obtain e | ⟨addr, n, v, e⟩ := h.mem <;> rw [e]
  · exact hb
  · exact memWrite_wf _ _ _ _ hb

/-- R51: msize never decreases within a run; the end of a run keeps it (R326). -/
theorem Block.Answers.msize_le (h : b.Answers m r) : b.msize ≤ r.block.msize := by
  cases h with
  | exits code _ => exact Nat.le_refl _
  | fails kind => exact Nat.le_refl _
  | goesOn r h => exact h.msize_le

/-- Where the answer leaves the block Running, the run goes on. -/
theorem Block.Answers.goesOn_of_running (h : b.Answers m r) (hr : r.block.phase = .running) : b.GoesOn m r.block := by
  cases h with
  | exits code _ => cases hr
  | fails kind => cases hr
  | goesOn r h => exact h

end Kept

/-! ## The invariant -/

/-- A run that ends from a block with pc within the code leaves the invariant, whatever its end. -/
theorem State.Inv.after_finish {s : State} (h : s.Inv) (p : Nat) (hp : p ≤ s.code.length) (e : RunEnd)
    (hcode : ∀ code, e = .exit code → code ≤ 1) : (s.after (finish e (s.toBlock.setPc p))).Inv where
  params := h.params
  codeLength := h.codeLength
  depth := Nat.zero_le _
  pc := Nat.zero_le _
  msize := h.msize
  jd := h.jd
  mem := h.mem
  atRest := fun _ => ⟨rfl, rfl⟩
  resDepth := by cases e <;> exact ⟨rfl, h.depth⟩
  faultPc := by
    have := h.codeLength
    have := h.params.2
    cases e with
    | exit code => exact Nat.two_pow_pos _
    | fatal kind =>
      change p - 1 < 2 ^ 256
      omega
  latch := by
    cases e with
    | exit code => exact ⟨rfl, rfl, hcode code rfl, rfl, rfl, rfl, rfl⟩
    | fatal kind => exact ⟨rfl, rfl, rfl, rfl, rfl⟩

/-- A run that goes on keeps the invariant: a jump stays within the code because JD is the scan of it. -/
theorem State.Inv.after_goesOn {s : State} {p m : Nat} {r : Reaction} (h : s.Inv) (hrun : s.phase = .running)
    (hp : p + m ≤ s.code.length) (hg : (s.toBlock.setPc p).GoesOn m r.block) : (s.after r).Inv where
  params := h.params
  codeLength := h.codeLength
  depth := hg.depth h.depth
  pc := by
    obtain hle | hjd := hg.pc
    · exact hle.trans hp
    · rw [Block.setPc_jd, h.jd] at hjd
      exact (lt_length_of_mem_scan hjd).le
  msize := hg.msize_multiple h.msize
  jd := hg.jd.trans h.jd
  mem := hg.mem_wf h.mem
  atRest := fun hr => absurd (hg.phase.trans hrun) hr
  resDepth := by
    rw [State.after_res, hg.res]
    exact h.resDepth
  faultPc := by
    rw [State.after_res, hg.res]
    exact h.faultPc
  latch := by
    have hphase : (s.after r).phase = .running := hg.phase.trans hrun
    have hl := h.latch
    simp only [State.LatchAgrees, hrun, hphase, State.after_res, hg.res] at hl ⊢
    exact hl

/-- Any answer to a Running block keeps the invariant. -/
theorem State.Inv.after_answer {s : State} {p m : Nat} {r : Reaction} (h : s.Inv) (hrun : s.phase = .running)
    (hp : p + m ≤ s.code.length) (ha : (s.toBlock.setPc p).Answers m r) : (s.after r).Inv := by
  cases ha with
  | exits code hc => exact h.after_finish p (by omega) _ fun _ e => by cases e; exact hc
  | fails kind => exact h.after_finish p (by omega) _ fun _ e => by cases e
  | goesOn r hg => exact h.after_goesOn hrun hp hg

/-- The start of a run with a bytecode that CODE_MAX allows keeps the invariant. -/
theorem State.Inv.beginRun {s : State} (h : s.Inv) (code : List Byte) (later : List (List Byte))
    (hl : code.length ≤ s.params.codeMax) : (beginRun code { s with starts := later }).Inv where
  params := h.params
  codeLength := hl
  depth := Nat.zero_le _
  pc := Nat.zero_le _
  msize := rfl
  jd := rfl
  mem := rfl
  atRest := fun hr => absurd rfl hr
  resDepth := h.resDepth
  faultPc := h.faultPc
  latch := rfl

theorem State.Inv.runStep {s t : State} (h : s.Inv) (hrun : s.phase = .running) (ht : runStep s = .next t) : t.Inv := by
  obtain ⟨p, m, r, hr, ha, hp⟩ := runStep_cases s
  cases hr.symm.trans ht
  exact h.after_answer hrun (hp h.pc) ha

theorem State.Inv.awaitStart {s t : State} (h : s.Inv) (ht : awaitStart s = .next t) : t.Inv := by
  obtain ⟨-, e⟩ | ⟨code, later, -, hl, e⟩ | ⟨_, _, -, -, e⟩ := awaitStart_cases s <;> cases e.symm.trans ht
  · exact h
  · exact h.beginRun code later hl

theorem Config.params_valid : Config.params.Valid := by
  refine ⟨?_, Config.codeMax.isLt⟩
  unfold Config.params
  cases Config.memAbove32 <;> simp

end Sys2Proof.Machine
end

section

open Sys2Proof Sys2Proof.Machine

namespace Sys2Proof.Proofs

/-- Settles O55: a Running block answers its fetched instruction, any other waits for a start, and each keeps the
invariant. -/
theorem stepKeepsInvariant : Obligations.StepKeepsInvariant := by
  intro s t h ht
  by_cases hrun : s.phase = .running
  · exact h.runStep hrun (step_running hrun ▸ ht)
  · exact h.awaitStart (step_not_running hrun ▸ ht)

/-- Settles O42: an instruction that leaves the block Running has gone on, and then it replaces at most the top 17. -/
theorem deepStackIsUntouched : Obligations.DeepStackIsUntouched := by
  intro i s t _ ht hrun
  obtain ⟨r, hr, ha⟩ := exec_answers i s
  cases hr.symm.trans ht
  exact (ha.goesOn_of_running hrun).stack

/-- Settles O53: msize is kept or extended by every answer to the fetched block. -/
theorem msizeNeverDecreasesInRun : Obligations.MsizeNeverDecreasesInRun := by
  intro s t hrun ht
  obtain ⟨p, m, r, hr, ha, -⟩ := runStep_cases s
  rw [step_running hrun] at ht
  cases hr.symm.trans ht
  exact ha.msize_le

/-- Settles O59: the meanings of the instructions are functions of the inputs and the block, and so is the step that
fetches one and performs it. -/
theorem stepTakesInputsAsArguments : Obligations.StepTakesInputsAsArguments := by
  choose meaning hmeaning _ using exec_performs_answering
  refine ⟨fun i => ⟨meaning i, hmeaning i⟩, ⟨reactionOf meaning, fun s hrun => ?_⟩, fun f s t ht => ?_⟩
  · rw [step_running hrun, runStep_eq_perform_reactionOf meaning hmeaning]
  · cases ht
    exact ⟨rfl, rfl, rfl, rfl⟩

/-- Settles O54: nothing runs, nothing is stored and no bytecode is present; the parameters are valid by their form. -/
theorem invariantAtPowerOn : Obligations.InvariantAtPowerOn where
  params := Config.params_valid
  codeLength := Nat.zero_le _
  depth := Nat.zero_le _
  pc := Nat.le_refl _
  msize := rfl
  jd := rfl
  mem := reset_mem_wf
  atRest := fun _ => ⟨rfl, rfl⟩
  resDepth := ⟨rfl, Nat.zero_le _⟩
  faultPc := Nat.two_pow_pos _
  latch := rfl

end Sys2Proof.Proofs
end

section
/-! SUPPORT. What a load and a store do where their access is admitted, and what a load sees of the memory that an earlier
store has left (spec 20_memory.md R63, R64, R68). -/

namespace Sys2Proof.Machine

open Sys2Proof.Claims

section Forms
variable {b : Block} {inp : Inputs}

theorem loadWord_run (n : Nat) (off : Word) (rest : List Word) (h : b.stack = off :: rest)
    (hd : b.stack.length ≤ 1024) (ha : memAdmits inp.params.memLimit off.toNat n = true) :
    loadWord n inp b = goOn { b with
      stack := memRead b.mem off.toNat n :: rest, msize := extent b.msize off.toNat n } := by
  rw [loadWord, standard_run _ _ _ (by simp [h]) (by omega), access, Block.addr, peek_cons _ _ h, if_pos ha]
  simp [Block.replaceTop, Block.touch, h]

theorem storeWord_run (n : Nat) (off v : Word) (rest : List Word) (h : b.stack = off :: v :: rest)
    (hd : b.stack.length ≤ 1024) (ha : memAdmits inp.params.memLimit off.toNat n = true) :
    storeWord n inp b = goOn { b with
      stack := rest, mem := memWrite b.mem off.toNat n v, msize := extent b.msize off.toNat n } := by
  rw [storeWord, standard_run _ _ _ (by simp [h]) (by omega), access, Block.addr, peek_cons _ _ h, if_pos ha]
  simp [Block.replaceTop, Block.store, peek_cons_cons _ _ _ h, h]

end Forms

variable {s : State}

/-- A load of n bytes from `off` (R191). -/
theorem perform_loadWord (n : Nat) (off : Word) (rest : List Word) (h : s.stack = off :: rest)
    (hd : s.stack.length ≤ 1024) (ha : Admitted s off.toNat n) :
    perform (loadWord n) s = .next { s with
      stack := memRead s.mem off.toNat n :: rest, msize := extent s.msize off.toNat n } :=
  perform_goOn _ _ (loadWord_run n off rest h hd ((memAdmits_iff _ _ _).mpr ha))

/-- A store of the low n bytes of `v` from `off` on (R192, R193). -/
theorem perform_storeWord (n : Nat) (off v : Word) (rest : List Word) (h : s.stack = off :: v :: rest)
    (hd : s.stack.length ≤ 1024) (ha : Admitted s off.toNat n) :
    perform (storeWord n) s = .next { s with
      stack := rest, mem := memWrite s.mem off.toNat n v, msize := extent s.msize off.toNat n } :=
  perform_goOn _ _ (storeWord_run n off v rest h hd ((memAdmits_iff _ _ _).mpr ha))

/-- A store, and then a load from the address that stood below its operands: the load reads the memory that the store
has written. -/
theorem storeWord_then_loadWord (n : Nat) (off v addr : Word) (rest : List Word) (h : s.stack = off :: v :: addr :: rest)
    (hd : s.stack.length ≤ 1024) (hstore : Admitted s off.toNat n) (hload : Admitted s addr.toNat 32) :
    ∃ t u : State, perform (storeWord n) s = .next t ∧ perform (loadWord 32) t = .next u ∧
      u.stack = memRead (memWrite s.mem off.toNat n v) addr.toNat 32 :: rest := by
  refine ⟨_, _, perform_storeWord n off v _ h hd hstore, perform_loadWord 32 addr rest rfl ?_ hload, rfl⟩
  simp only [h, List.length_cons] at hd ⊢
  omega

/-- A load of 32 bytes has the byte at the address `addr + j` as its byte j. -/
theorem byteAt_memRead (m : List Host.Cell) (addr j : Nat) (hj : j < 32) :
    byteAt (memRead m addr 32) j = Memory.read m (addr + j) := by
  rw [byteAt, show 248 - 8 * j = 8 * (31 - j) by omega]
  exact memRead_byte m addr j hj

/-- Inside an earlier store a load of 32 bytes sees the stored byte, wherever the two begin (R68). -/
theorem byteAt_memRead_memWrite_inside (m : List Host.Cell) (off n addr i j : Nat) (v : Word) (hj : j < 32) (hi : i < n)
    (he : addr + j = off + i) :
    byteAt (memRead (memWrite m off n v) addr 32) j = v.extractLsb' (8 * (n - 1 - i)) 8 := by
  rw [byteAt_memRead _ _ _ hj, he, memWrite_inside _ _ _ _ _ hi]

/-- Outside an earlier store a load of 32 bytes sees the byte from before the store (R68). -/
theorem byteAt_memRead_memWrite_outside (m : List Host.Cell) (off n addr j : Nat) (v : Word) (hj : j < 32)
    (ho : addr + j < off ∨ off + n ≤ addr + j) :
    byteAt (memRead (memWrite m off n v) addr 32) j = Memory.read m (addr + j) := by
  rw [byteAt_memRead _ _ _ hj, memWrite_outside _ _ _ _ _ ho]

end Sys2Proof.Machine
end

section
/-! SUPPORT. The operand form of every instruction, said once (`exec_hasForm`), and from it what each instruction leaves
unchanged (`HasForm.framed`): a proof about all instructions has one case for each form. -/

namespace Sys2Proof.Machine

/-! ## The form of every instruction -/

/-- `HasForm i f`: the meaning of `i` is the operand form `f` of Machine/Operands.lean. Where a form is that of several
instructions, their arity and length (R92, R102) stand beside it. -/
inductive HasForm : Instr → (Inputs → Block → Reaction) → Prop where
  | stop : HasForm .stop fun _ => exitWith 0
  | invalid : HasForm .invalid fun _ => exitWith 1
  | unary {i : Instr} (f : Word → Word) (ha : arity i = (1, 1)) (hl : instrLength i = 1) :
    HasForm i fun _ => aluUnary f
  | binary {i : Instr} (f : Inputs → Word → Word → Word) (ha : arity i = (2, 1)) (hl : instrLength i = 1) :
    HasForm i fun inp => aluBinary (f inp)
  | ternary {i : Instr} (f : Word → Word → Word → Word) (ha : arity i = (3, 1)) (hl : instrLength i = 1) :
    HasForm i fun _ => aluTernary f
  | byte : HasForm .byte fun _ => standard 2 1 fun b =>
      { goOn (b.replaceTop 2 [aluByte (b.peek 0) (b.peek 1)]) with event := byteWarning b }
  | pop : HasForm .pop fun _ => standard 1 0 fun b => goOn (b.replaceTop 1 [])
  | gas : HasForm .gas fun inp => standard 0 1 fun b => { goOn (b.replaceTop 0 [inp.gasIn]) with readsGas := true }
  | pc : HasForm .pc fun _ => pushWord fun b => BitVec.ofNat 256 b.ipc
  | jumpdest : HasForm .jumpdest fun _ => goOn
  | mload : HasForm .mload (loadWord 32)
  | mstore : HasForm .mstore (storeWord 32)
  | mstore8 : HasForm .mstore8 (storeWord 1)
  | jump : HasForm .jump fun _ b => if b.depth < 1 then raise .stackUnderflow b else jumpTaken 1 b
  | jumpi : HasForm .jumpi fun _ b =>
      if b.depth < 2 then raise .stackUnderflow b
      else if b.peek 1 ≠ 0 then jumpTaken 2 b
      else goOn (b.replaceTop 2 [])
  | push {i : Instr} (n : Nat) (imm : List Byte) (ha : arity i = (0, 1)) (hl : instrLength i = n + 1)
    (hw : i.wellFormed = (imm.length == n)) : HasForm i fun _ => pushImmediate n imm
  | dup {i : Instr} (n : Nat) (ha : arity i = (n, n + 1)) (hl : instrLength i = 1) : HasForm i fun _ => dupEntry n
  | swap {i : Instr} (n : Nat) (ha : arity i = (n + 1, n + 1)) (hl : instrLength i = 1) : HasForm i fun _ => swapEntry n

/-- Every instruction performs its form. -/
theorem exec_hasForm (i : Instr) : ∃ f, (∀ s, exec i s = perform f s) ∧ HasForm i f := by
  cases i with
  | stop => exact ⟨_, fun _ => rfl, .stop⟩
  | invalid => exact ⟨_, fun _ => rfl, .invalid⟩
  | iszero | not => exact ⟨_, fun _ => rfl, .unary _ rfl rfl⟩
  | add | mul | sub | div | sdiv | mod | smod | exp | lt | gt | slt | sgt | eq | and | or | xor | shl | shr =>
    exact ⟨_, fun _ => rfl, .binary (fun _ => _) rfl rfl⟩
  | sar => exact ⟨_, fun _ => rfl, .binary (fun inp => aluSar inp.params.sarMode) rfl rfl⟩
  | addmod | mulmod => exact ⟨_, fun _ => rfl, .ternary _ rfl rfl⟩
  | byte => exact ⟨_, fun _ => rfl, .byte⟩
  | pop => exact ⟨_, fun _ => rfl, .pop⟩
  | gas => exact ⟨_, fun _ => rfl, .gas⟩
  | pc => exact ⟨_, fun _ => rfl, .pc⟩
  | jumpdest => exact ⟨_, fun _ => rfl, .jumpdest⟩
  | mload => exact ⟨_, fun _ => rfl, .mload⟩
  | mstore => exact ⟨_, fun _ => rfl, .mstore⟩
  | mstore8 => exact ⟨_, fun _ => rfl, .mstore8⟩
  | jump => exact ⟨_, fun _ => rfl, .jump⟩
  | jumpi => exact ⟨_, fun _ => rfl, .jumpi⟩
  | push1 imm | push2 imm | push3 imm | push4 imm | push5 imm | push6 imm | push7 imm | push8 imm | push9 imm
  | push10 imm | push11 imm | push12 imm | push13 imm | push14 imm | push15 imm | push16 imm | push17 imm
  | push18 imm | push19 imm | push20 imm | push21 imm | push22 imm | push23 imm | push24 imm | push25 imm
  | push26 imm | push27 imm | push28 imm | push29 imm | push30 imm | push31 imm | push32 imm =>
    exact ⟨_, fun _ => rfl, .push _ imm rfl rfl rfl⟩
  | dup1 | dup2 | dup3 | dup4 | dup5 | dup6 | dup7 | dup8 | dup9 | dup10 | dup11 | dup12 | dup13 | dup14 | dup15
  | dup16 => exact ⟨_, fun _ => rfl, .dup _ rfl rfl⟩
  | swap1 | swap2 | swap3 | swap4 | swap5 | swap6 | swap7 | swap8 | swap9 | swap10 | swap11 | swap12 | swap13
  | swap14 | swap15 | swap16 => exact ⟨_, fun _ => rfl, .swap _ rfl rfl⟩

/-! ## The frame -/

/-- What the answer `r` of the instruction `i` leaves as it was in the block `b` (R44, R70, R72): data memory but for
the stores, its extent but for the memory instructions; and only GAS samples gas_in (R46). Where a form leaves a field
alone whatever its instruction, its proof need not say so. -/
structure Framed (i : Instr) (b : Block) (r : Reaction) : Prop where
  jd : r.block.jd = b.jd := by rfl
  mem : i ≠ .mstore → i ≠ .mstore8 → r.block.mem = b.mem := by exact fun _ _ => rfl
  msize : i ≠ .mload → i ≠ .mstore → i ≠ .mstore8 → r.block.msize = b.msize := by exact fun _ _ _ => rfl
  readsGas : i ≠ .gas → r.readsGas = false := by exact fun _ => rfl

section Forms
variable {i : Instr} {b : Block}

theorem finish_framed (e : RunEnd) : Framed i b (finish e b) := {}

theorem ite_framed (c : Prop) [Decidable c] {r r' : Reaction} (h : Framed i b r) (h' : Framed i b r') :
    Framed i b (if c then r else r') := by
  split
  · exact h
  · exact h'

/-- The checks of the standard sequencing end the run or leave the answer to the body. -/
theorem standard_framed (k p : Nat) (body : Block → Reaction) (h : Framed i b (body b)) :
    Framed i b (standard k p body b) := by
  obtain ⟨-, e⟩ | ⟨-, -, e⟩ | ⟨-, -, e⟩ := standard_cases k p body b <;> rw [e]
  · exact finish_framed _
  · exact finish_framed _
  · exact h

theorem access_framed (inp : Inputs) (n : Nat) (body : Block → Reaction) (h : Framed i b (body b)) :
    Framed i b (access inp n body b) := by
  obtain ⟨-, e⟩ | ⟨-, e⟩ := access_cases inp n body b <;> rw [e]
  · exact h
  · exact finish_framed _

theorem jumpTaken_framed (k : Nat) : Framed i b (jumpTaken k b) := by
  obtain ⟨-, e⟩ | ⟨-, e⟩ := jumpTaken_cases k b <;> rw [e]
  · exact {}
  · exact finish_framed _

theorem pushImmediate_framed (n : Nat) (imm : List Byte) : Framed i b (pushImmediate n imm b) :=
  ite_framed _ (finish_framed _) (standard_framed _ _ _ {})

theorem swapEntry_framed (n : Nat) : Framed i b (swapEntry n b) :=
  ite_framed _ (finish_framed _) {}

theorem loadWord_framed (n : Nat) (inp : Inputs) : Framed .mload b (loadWord n inp b) :=
  standard_framed _ _ _ (access_framed _ _ _ { msize := fun h => absurd rfl h })

theorem storeWord_framed (n : Nat) (inp : Inputs) (hi : i = .mstore ∨ i = .mstore8) :
    Framed i b (storeWord n inp b) :=
  standard_framed _ _ _ (access_framed _ _ _
    { mem := fun h h' => absurd hi (not_or.mpr ⟨h, h'⟩)
      msize := fun _ h h' => absurd hi (not_or.mpr ⟨h, h'⟩) })

end Forms

theorem HasForm.framed {i : Instr} {f : Inputs → Block → Reaction} (h : HasForm i f) (inp : Inputs)
    (b : Block) : Framed i b (f inp b) := by
  cases h with
  | stop | invalid => exact finish_framed _
  | unary | binary | ternary | byte | pop | pc | dup => exact standard_framed _ _ _ {}
  | gas => exact standard_framed _ _ _ { readsGas := fun h => absurd rfl h }
  | jumpdest => exact {}
  | mload => exact loadWord_framed 32 inp
  | mstore => exact storeWord_framed 32 inp (.inl rfl)
  | mstore8 => exact storeWord_framed 1 inp (.inr rfl)
  | jump => exact ite_framed _ (finish_framed _) (jumpTaken_framed 1)
  | jumpi => exact ite_framed _ (finish_framed _) (ite_framed _ (jumpTaken_framed 2) {})
  | push n imm => exact pushImmediate_framed n imm
  | swap n => exact swapEntry_framed n

end Sys2Proof.Machine
end

section

open Sys2Proof Sys2Proof.Machine

namespace Sys2Proof.Proofs

/-- Settles O21: the load reads the memory that the store has written, so each byte of it lies inside the store or
outside. -/
theorem overlappingStoreThenLoad : Obligations.OverlappingStoreThenLoad := by
  constructor
  · intro s a v b rest h hd hstore hload hlo hhi
    obtain ⟨t, u, ht, hu, hstack⟩ := storeWord_then_loadWord 1 a v b rest h hd hstore hload
    exact ⟨t, u, _, ht, hu, hstack,
      byteAt_memRead_memWrite_inside _ _ 1 _ 0 _ _ (by omega) (by omega) (by omega)⟩
  · intro s a x b rest k h hd hstore hload hb _ hk
    obtain ⟨t, u, ht, hu, hstack⟩ := storeWord_then_loadWord 32 a x b rest h hd hstore hload
    refine ⟨t, u, _, ht, hu, hstack, fun j hj => ?_, fun j hj => ?_⟩
    · rw [byteAt_memRead_memWrite_inside _ _ 32 _ (j + k) _ _ (by omega) (by omega) (by omega), Claims.byteAt,
        show 8 * (32 - 1 - (j + k)) = 248 - 8 * (j + k) by omega]
    · rw [byteAt_memRead_memWrite_outside _ _ 32 _ _ _ (by omega) (by omega),
        show b.toNat + (32 - k + j) = a.toNat + 32 + j by omega]

/-- Settles O43: parameters, code and starts stay around every reaction (R75); the rest is the frame of the form that
the instruction performs. -/
theorem frameOfEveryInstruction : Obligations.FrameOfEveryInstruction := by
  intro i s t ht
  obtain ⟨f, hf, hform⟩ := exec_hasForm i
  cases (hf s).symm.trans ht
  have h := hform.framed s.inputs s.toBlock
  refine ⟨rfl, rfl, rfl, h.jd, fun hs hs8 x => ?_, h.msize, fun hg => ?_⟩
  · rw [State.after_mem, h.mem hs hs8]
  · simp [h.readsGas hg]

end Sys2Proof.Proofs
end

section
/-! SUPPORT. The opcode map R92 as the decoder and the encoder of spec 30_encoding.md share it: every instruction stands in a
row of it (`exists_opcodeRow`), and so does every byte that R96 does not list (`exists_opcodeRow_of_known`). -/

namespace Sys2Proof

open Sys2Proof.Claims

/-- A row of the opcode map: `op` is the opcode byte of an instruction with `n` immediate bytes, which is `make imm` for the
immediate `imm`, or for what the code has left of it (log 11). A row with no immediate bytes has one instruction. -/
structure OpcodeRow (op : Byte) (n : Nat) (make : List Byte → Instr) : Prop where
  decode_cons : ∀ bytes, decode (op :: bytes) = .ok (make (bytes.take n), bytes.drop n)
  encode_make : ∀ imm, imm.length ≤ n → encode (make imm) = op :: imm
  instrLength_make : ∀ imm, instrLength (make imm) = n + 1
  wellFormed_make : ∀ imm, imm.length ≤ n → (make imm).wellFormed = (imm.length == n)

/-- The row of an instruction that is one byte long. -/
theorem OpcodeRow.of_single {op : Byte} {i : Instr} (hd : ∀ bytes, decode (op :: bytes) = .ok (i, bytes))
    (he : encode i = [op]) (hl : instrLength i = 1) (hw : i.wellFormed = true) : OpcodeRow op 0 fun _ => i where
  decode_cons := hd
  encode_make imm h := by rw [he, List.eq_nil_of_length_eq_zero (Nat.le_zero.mp h)]
  instrLength_make _ := hl
  wellFormed_make imm h := by simp [hw, Nat.le_zero.mp h]

/-- Every instruction stands in the row of its opcode byte, and the row makes it where it has all its immediate bytes. -/
theorem exists_opcodeRow (i : Instr) : ∃ op n make imm, OpcodeRow op n make ∧ encode i = op :: imm ∧
    (i.wellFormed = true → imm.length = n ∧ make imm = i) := by
  cases i with
  | push1 imm | push2 imm | push3 imm | push4 imm | push5 imm | push6 imm | push7 imm | push8 imm | push9 imm
  | push10 imm | push11 imm | push12 imm | push13 imm | push14 imm | push15 imm | push16 imm | push17 imm
  | push18 imm | push19 imm | push20 imm | push21 imm | push22 imm | push23 imm | push24 imm | push25 imm
  | push26 imm | push27 imm | push28 imm | push29 imm | push30 imm | push31 imm | push32 imm =>
    exact ⟨_, _, _, imm, ⟨fun _ => rfl, fun _ _ => rfl, fun _ => rfl, fun _ _ => rfl⟩, rfl,
      fun hw => ⟨beq_iff_eq.mp hw, rfl⟩⟩
  | _ => exact ⟨_, 0, _, [], .of_single (fun _ => rfl) rfl rfl rfl, rfl, fun _ => ⟨rfl, rfl⟩⟩

/-- R96 against the decoder, byte value by byte value: a listed one is refused, and every other is decoded to an instruction
whose encoding begins with it. -/
theorem decode_single (op : Byte) :
    (Unknown op ∧ decode [op] = .error (.unknownOpcode op)) ∨
    (¬ Unknown op ∧ (decode [op]).map (fun answer => (encode answer.1).head?) = .ok (some op)) := by
  revert op
  unfold Unknown
  decide

/-- The decoder refuses a byte by the byte alone (R95). -/
theorem decode_error_of_single {op : Byte} {e : DecodeError} (h : decode [op] = .error e) (bytes : List Byte) :
    decode (op :: bytes) = .error e := by
  simp only [decode] at h ⊢
  cases hs : singleOpcodes.lookup op with
  | some i => simp [hs] at h
  | none =>
    simp only [hs] at h ⊢
    split_ifs at h ⊢
    · cases hf : pushFamily[(op.extractLsb 4 0).toNat]? <;> simp_all
    · cases hf : dupFamily[(op.extractLsb 3 0).toNat]? <;> simp_all
    · cases hf : swapFamily[(op.extractLsb 3 0).toNat]? <;> simp_all
    · exact h

theorem decode_of_unknown {op : Byte} (h : Unknown op) (bytes : List Byte) :
    decode (op :: bytes) = .error (.unknownOpcode op) := by
  obtain ⟨-, he⟩ | ⟨hk, -⟩ := decode_single op
  · exact decode_error_of_single he bytes
  · exact absurd h hk

theorem exists_opcodeRow_of_known {op : Byte} (h : ¬ Unknown op) : ∃ n make, OpcodeRow op n make := by
  obtain ⟨hu, -⟩ | ⟨-, hi⟩ := decode_single op
  · exact absurd hu h
  · rcases hd : decode [op] with e | ⟨i, rest⟩ <;> rw [hd] at hi
    · cases hi
    · obtain ⟨op', n, make, imm, hrow, he, -⟩ := exists_opcodeRow i
      obtain rfl : op' = op := by simpa [Except.map, he] using hi
      exact ⟨n, make, hrow⟩

end Sys2Proof
end

section

open Sys2Proof Sys2Proof.Machine Sys2Proof.Claims

namespace Sys2Proof.Proofs

/-- Settles O36: the row of the instruction decodes what it encodes, and the immediate takes exactly its own bytes. -/
theorem decodeOfEncode : Obligations.DecodeOfEncode := by
  intro i rest hw
  obtain ⟨op, n, make, imm, hrow, he, himm⟩ := exists_opcodeRow i
  obtain ⟨rfl, rfl⟩ := himm hw
  rw [he, List.cons_append, hrow.decode_cons, List.take_left, List.drop_left]

/-- Settles O37: bytes that decode begin with a known byte, whose row takes n immediate bytes or what is left. -/
theorem encodeOfDecode : Obligations.EncodeOfDecode := by
  rintro (_ | ⟨op, bytes⟩) rest i h
  · cases h
  · by_cases hu : Unknown op
    · rw [decode_of_unknown hu] at h
      cases h
    · obtain ⟨n, make, hrow⟩ := exists_opcodeRow_of_known hu
      rw [hrow.decode_cons] at h
      cases h
      have hle : (bytes.take n).length ≤ n := List.length_take_le ..
      refine ⟨by rw [hrow.encode_make _ hle]; simp, ?_⟩
      rw [hrow.wellFormed_make _ hle, hrow.instrLength_make, List.length_take, List.drop_eq_nil_iff, beq_iff_eq,
        List.length_cons]
      omega

/-- Settles O33: the decoder, run on each sample. -/
theorem sampleBytesDecode : Obligations.SampleBytesDecode :=
  ⟨rfl, rfl, rfl, rfl, rfl, rfl, rfl, rfl, rfl⟩

/-- Settles O34: one case for each thing a fetch can find. -/
theorem stepRunsDecodedInstruction : Obligations.StepRunsDecodedInstruction := by
  intro s hrun
  rw [step_running hrun]
  unfold runStep
  refine ⟨fun hend => ?_, fun op rest hbytes hd => ?_, fun i rest hd => ?_⟩
  · rw [fetch_endOfCode _ hend]
    rfl
  · rw [fetch_unknown _ op (hbytes ▸ hd)]
    rfl
  · rw [fetch_instr _ i rest hd]

/-- Settles O35: every byte is listed by R96 or stands in a row of the opcode map; where it is listed, the step is the one of
R93 on an unknown byte. -/
theorem unknownBytesAreFatal : Obligations.UnknownBytesAreFatal := by
  refine ⟨fun op rest => ⟨fun h => ?_, fun hu => decode_of_unknown hu rest⟩, fun op rest hk => ?_, by rfl,
    fun s op hrun hop hu => ?_⟩
  · by_contra hk
    obtain ⟨n, make, hrow⟩ := exists_opcodeRow_of_known hk
    cases (hrow.decode_cons rest).symm.trans h
  · obtain ⟨n, make, hrow⟩ := exists_opcodeRow_of_known hk
    exact ⟨_, _, hrow.decode_cons rest⟩
  · obtain ⟨hlt, rfl⟩ := List.getElem?_eq_some_iff.mp hop
    obtain ⟨-, hstep, -⟩ := stepRunsDecodedInstruction s hrun
    exact hstep _ _ (List.drop_eq_getElem_cons hlt) (decode_of_unknown hu _)

end Sys2Proof.Proofs
end

section
/-! SUPPORT. The jump-destination scan against the instruction starts of a bytecode (spec 30_encoding.md R99): both pass over
the same bytes, so the scan records the starts that hold a JUMPDEST (`mem_scanFrom_iff`), in rising order. -/

namespace Sys2Proof.Machine

/-! ## Instruction starts -/

theorem byteLength_eq_scanSkip_add_one (op : Byte) : byteLength op = scanSkip op + 1 := by
  unfold byteLength scanSkip
  split <;> omega

/-- The starts of the code from a start on are starts of the whole code. -/
theorem InstrStart.add {code : List Byte} {a d : Nat} (ha : InstrStart code a) (hd : InstrStart (code.drop a) d) :
    InstrStart code (a + d) := by
  induction hd with
  | entry => exact ha
  | after _ hop ih =>
    rw [List.getElem?_drop] at hop
    exact Nat.add_assoc a .. ▸ ih.after hop

/-- The bytes of a code past its first one and `k` more. -/
theorem getElem?_cons_add (op : Byte) (rest : List Byte) (k d : Nat) :
    (op :: rest)[k + 1 + d]? = (rest.drop k)[d]? := by
  rw [List.getElem?_drop, Nat.add_right_comm, List.getElem?_cons_succ]

/-- The starts of a code are its beginning and those of what follows its first instruction. -/
theorem instrStart_cons_iff (op : Byte) (rest : List Byte) (t : Nat) : InstrStart (op :: rest) t ↔
    t = 0 ∨ ∃ d, t = scanSkip op + 1 + d ∧ InstrStart (rest.drop (scanSkip op)) d := by
  have hlen := byteLength_eq_scanSkip_add_one op
  constructor
  · intro h
    induction h with
    | entry => exact .inl rfl
    | @after c op' _ hop ih =>
      right
      obtain rfl | ⟨d, rfl, hd⟩ := ih
      · cases hop
        exact ⟨0, by omega, .entry⟩
      · refine ⟨d + byteLength op', by omega, hd.after ?_⟩
        rwa [← getElem?_cons_add op]
  · rintro (rfl | ⟨d, rfl, hd⟩)
    · exact .entry
    · have first : InstrStart (op :: rest) (0 + byteLength op) := .after .entry rfl
      rw [Nat.zero_add, hlen] at first
      exact first.add hd

/-! ## The scan -/

/-- The scan at an opcode byte; a JUMPDEST has no immediate bytes to skip. -/
theorem scanFrom_opcode (c : Nat) (op : Byte) (rest : List Byte) : scanFrom c 0 (op :: rest) =
    (if op = jumpdestByte then [c] else []) ++ scanFrom (c + 1) (scanSkip op) rest := by
  rw [scanFrom]
  split
  · next h => subst h; rfl
  · rfl

/-- What the scan records from the cursor `c` on with `k` bytes to skip. -/
theorem mem_scanFrom_iff (c k : Nat) (bytes : List Byte) (t : Nat) : t ∈ scanFrom c k bytes ↔
    ∃ d, t = c + k + d ∧ InstrStart (bytes.drop k) d ∧ (bytes.drop k)[d]? = some jumpdestByte := by
  induction bytes generalizing c k with
  | nil => simp [scanFrom]
  | cons op rest ih =>
    cases k with
    | succ k => simp only [scanFrom, ih, List.drop_succ_cons, Nat.add_assoc, Nat.add_comm 1 k]
    | zero =>
      rw [scanFrom_opcode, List.mem_append, ih]
      simp only [List.drop_zero, instrStart_cons_iff, Nat.add_zero]
      constructor
      · rintro (h | ⟨d, rfl, hd, hop⟩)
        · obtain ⟨rfl, rfl⟩ : op = jumpdestByte ∧ t = c := by simpa [List.mem_ite_nil_right] using h
          exact ⟨0, rfl, .inl rfl, rfl⟩
        · refine ⟨scanSkip op + 1 + d, by omega, .inr ⟨d, rfl, hd⟩, ?_⟩
          rwa [getElem?_cons_add]
      · rintro ⟨_, rfl, rfl | ⟨d, rfl, hd⟩, hop⟩
        · cases hop
          exact .inl (by simp)
        · refine .inr ⟨d, by omega, hd, ?_⟩
          rwa [← getElem?_cons_add op]

theorem scanFrom_pairwise (c k : Nat) (bytes : List Byte) : (scanFrom c k bytes).Pairwise (· < ·) := by
  induction bytes generalizing c k with
  | nil => exact .nil
  | cons op rest ih =>
    cases k with
    | succ k => exact ih _ _
    | zero =>
      rw [scanFrom]
      split
      · refine .cons (fun t ht => ?_) (ih _ _)
        obtain ⟨d, rfl, -⟩ := (mem_scanFrom_iff ..).mp ht
        omega
      · exact ih _ _

end Sys2Proof.Machine
end

section

open Sys2Proof Sys2Proof.Machine

namespace Sys2Proof.Proofs

/-- Settles O38: the scan from offset 0 with nothing to skip. -/
theorem scanFindsJumpdests : Obligations.ScanFindsJumpdests := by
  refine fun code => ⟨scanFrom_pairwise 0 0 code, fun t => ?_⟩
  simp [scan, mem_scanFrom_iff, jumpdestByte]

end Sys2Proof.Proofs
end

section
/-! SUPPORT. What an instruction does with the depth of the stack (spec 30_encoding.md R97), over the columns k and p of R92:
`Sequenced`, said once for every operand form and from these for every instruction. -/

namespace Sys2Proof.Machine

/-- Everything the instruction `i` can answer to the block `b`, by the depth: its k words are checked first, then the room
for its p words (R97), and where it goes on it has taken the k words and left the p. -/
inductive Sequenced (i : Instr) (b : Block) : Reaction → Prop where
  | underflow (hk : b.stack.length < (arity i).1) : Sequenced i b (finish (.fatal .stackUnderflow) b)
  | overflow (hk : (arity i).1 ≤ b.stack.length) (ho : 1024 < b.stack.length - (arity i).1 + (arity i).2) :
      Sequenced i b (finish (.fatal .stackOverflow) b)
  /-- The run ends for another reason. Only a PUSHn cut short does so before its room is checked (R327). -/
  | ends (e : RunEnd) (hk : (arity i).1 ≤ b.stack.length)
      (hroom : i.wellFormed = true → b.stack.length ≤ 1024 → b.stack.length - (arity i).1 + (arity i).2 ≤ 1024) :
      Sequenced i b (finish e b)
  | goesOn (r : Reaction) (hk : (arity i).1 ≤ b.stack.length)
      (hroom : b.stack.length ≤ 1024 → b.stack.length - (arity i).1 + (arity i).2 ≤ 1024)
      (hd : r.block.stack.length = b.stack.length - (arity i).1 + (arity i).2) : Sequenced i b r

section Forms
variable {i : Instr} {b : Block} {k p : Nat}

/-- Past the two checks of the standard sequencing only the body is left to look at. -/
theorem standard_sequenced (ha : arity i = (k, p)) (body : Block → Reaction)
    (h : k ≤ b.stack.length → b.stack.length - k + p ≤ 1024 → Sequenced i b (body b)) :
    Sequenced i b (standard k p body b) := by
  obtain ⟨hk, e⟩ | ⟨hk, ho, e⟩ | ⟨hk, ho, e⟩ := standard_cases k p body b <;> rw [e]
  · exact .underflow (by rwa [ha])
  · exact .overflow (by rwa [ha]) (by rwa [ha])
  · exact h hk ho

/-- The standard sequencing with a body that always leaves the depth its arity says. -/
theorem standard_sequenced_of_depth (ha : arity i = (k, p)) (body : Block → Reaction)
    (hd : k ≤ b.stack.length → (body b).block.stack.length = b.stack.length - k + p) :
    Sequenced i b (standard k p body b) :=
  standard_sequenced ha body fun hk ho =>
    .goesOn _ (by rwa [ha]) (fun _ => by rwa [ha]) (by rw [ha]; exact hd hk)

/-- The standard sequencing with an access to data memory, whose limit is checked last (R327). -/
theorem standard_access_sequenced (ha : arity i = (k, p)) (inp : Inputs) (n : Nat) (body : Block → Reaction)
    (hd : k ≤ b.stack.length → (body b).block.stack.length = b.stack.length - k + p) :
    Sequenced i b (standard k p (access inp n body) b) := by
  refine standard_sequenced ha _ fun hk ho => ?_
  obtain ⟨-, e⟩ | ⟨-, e⟩ := access_cases inp n body b <;> rw [e]
  · exact .goesOn _ (by rwa [ha]) (fun _ => by rwa [ha]) (by rw [ha]; exact hd hk)
  · exact .ends _ (by rwa [ha]) (fun _ _ => by rwa [ha])

/-- A jump checks its operands itself; it needs no room. -/
theorem jumpTaken_sequenced (ha : arity i = (k, 0)) (hk : k ≤ b.stack.length) : Sequenced i b (jumpTaken k b) := by
  obtain ⟨-, e⟩ | ⟨-, e⟩ := jumpTaken_cases k b <;> rw [e]
  · exact .goesOn _ (by rwa [ha]) (by rw [ha]; omega) (by simp [ha])
  · exact .ends _ (by rwa [ha]) (by rw [ha]; omega)

theorem pushImmediate_sequenced (ha : arity i = (0, 1)) (n : Nat) (imm : List Byte)
    (hw : i.wellFormed = (imm.length == n)) : Sequenced i b (pushImmediate n imm b) := by
  obtain ⟨hn, e⟩ | ⟨-, ho, e⟩ | ⟨-, ho, e⟩ := pushImmediate_cases n imm b <;> rw [e]
  · exact .ends _ (by simp [ha]) fun h => by
      rw [hw, beq_iff_eq] at h
      omega
  · exact .overflow (by simp [ha]) (by rw [ha]; omega)
  · exact .goesOn _ (by simp [ha]) (by rw [ha]; omega) (by simp [ha])

theorem swapEntry_sequenced (n : Nat) (ha : arity i = (n + 1, n + 1)) : Sequenced i b (swapEntry n b) := by
  obtain ⟨hk, e⟩ | ⟨hk, e⟩ := swapEntry_cases n b <;> rw [e]
  · exact .underflow (by rwa [ha])
  · exact .goesOn _ (by rwa [ha]) (by rw [ha]; omega) (by simp [ha]; omega)

theorem jump_sequenced : Sequenced .jump b (if b.depth < 1 then raise .stackUnderflow b else jumpTaken 1 b) := by
  split
  · next h => exact .underflow h
  · next h => exact jumpTaken_sequenced rfl (Nat.le_of_not_lt h)

theorem jumpi_sequenced : Sequenced .jumpi b (if b.depth < 2 then raise .stackUnderflow b
    else if b.peek 1 ≠ 0 then jumpTaken 2 b else goOn (b.replaceTop 2 [])) := by
  split
  · next h => exact .underflow h
  · next h =>
    have hk : 2 ≤ b.stack.length := Nat.le_of_not_lt h
    split
    · exact jumpTaken_sequenced rfl hk
    · exact .goesOn _ hk (by simp [arity]; omega) (by simp [arity])

end Forms

theorem HasForm.sequenced {i : Instr} {f : Inputs → Block → Reaction} (h : HasForm i f) (inp : Inputs) (b : Block) :
    Sequenced i b (f inp b) := by
  cases h with
  | stop | invalid => exact .ends _ (Nat.zero_le _) fun _ => id
  | unary _ ha | binary _ ha | ternary _ ha => exact standard_sequenced_of_depth ha _ (by simp)
  | byte | pop | gas | pc => exact standard_sequenced_of_depth rfl _ (by simp)
  | jumpdest => exact .goesOn _ (Nat.zero_le _) id rfl
  | mload => exact standard_access_sequenced rfl inp 32 _ (by simp)
  | mstore => exact standard_access_sequenced rfl inp 32 _ (by simp)
  | mstore8 => exact standard_access_sequenced rfl inp 1 _ (by simp)
  | jump => exact jump_sequenced
  | jumpi => exact jumpi_sequenced
  | push n imm ha _ hw => exact pushImmediate_sequenced ha n imm hw
  | dup n ha => exact standard_sequenced_of_depth ha _ (by simp; omega)
  | swap n ha => exact swapEntry_sequenced n ha

theorem exec_sequenced (i : Instr) (s : State) : ∃ r, exec i s = .next (s.after r) ∧ Sequenced i s.toBlock r := by
  obtain ⟨f, hf, hform⟩ := exec_hasForm i
  exact ⟨_, hf s, hform.sequenced s.inputs s.toBlock⟩

theorem finish_phase_ne_running (e : RunEnd) (b : Block) : (finish e b).block.phase ≠ .running := by
  cases e with
  | exit | fatal => nofun

end Sys2Proof.Machine
end

section

open Sys2Proof Sys2Proof.Machine

namespace Sys2Proof.Proofs

/-- Settles O39: every other answer has found the k words. -/
theorem everyInstructionUnderflows : Obligations.EveryInstructionUnderflows := by
  intro i s hlt
  obtain ⟨r, hr, hseq⟩ := exec_sequenced i s
  rw [hr]
  cases hseq with
  | underflow => rw [State.after_finish]
  | overflow hk | ends _ hk | goesOn _ hk => exact absurd hlt (Nat.not_lt.mpr hk)

/-- Settles O40: a well-formed instruction that answers anything else on a full set of operands has found the room. -/
theorem everyInstructionOverflows : Obligations.EveryInstructionOverflows := by
  intro i s hw hk hd ho
  obtain ⟨r, hr, hseq⟩ := exec_sequenced i s
  rw [hr]
  cases hseq with
  | underflow hlt => exact absurd hlt (Nat.not_lt.mpr hk)
  | overflow => rw [State.after_finish]
  | ends _ _ hroom => exact absurd ho (Nat.not_lt.mpr (hroom hw hd))
  | goesOn _ _ hroom => exact absurd ho (Nat.not_lt.mpr (hroom hd))

/-- Settles O41: the end of a run leaves no Running phase. -/
theorem depthChangesByArity : Obligations.DepthChangesByArity := by
  intro i s t _ ht hrun
  obtain ⟨r, hr, hseq⟩ := exec_sequenced i s
  cases hr.symm.trans ht
  cases hseq with
  | underflow | overflow | ends => exact absurd hrun (finish_phase_ne_running _ _)
  | goesOn _ hk _ hd => exact ⟨hk, hd⟩

end Sys2Proof.Proofs
end

section
/-! SUPPORT. The arithmetic functions of the ALU (spec 40_arithmetic.md R121 to R130) as functions of the integers their
operands stand for, and what an instruction of an ALU form does, in the words of the statements (`binary_of_exec`,
`ternary_of_exec`). -/

namespace Sys2Proof.Machine

open Sys2Proof.Claims

/-! ## Instructions of an ALU form -/

theorem binary_of_exec {i : Instr} {op : Byte} {f r : Word → Word → Word} (he : Encoded i op)
    (hx : ∀ s, exec i s = perform (fun _ => aluBinary f) s) (hf : ∀ a b, f a b = r a b) : Binary i op r := by
  refine ⟨he, fun s hlt => ?_, fun s a b rest h hd => ?_⟩
  · rw [hx, perform_finish _ _ (standard_underflow 2 1 _ hlt)]
  · rw [hx, perform_goOn _ _ (aluBinary_run f a b rest h hd), hf]

theorem ternary_of_exec {i : Instr} {op : Byte} {f r : Word → Word → Word → Word} (he : Encoded i op)
    (hx : ∀ s, exec i s = perform (fun _ => aluTernary f) s) (hf : ∀ a b c, f a b c = r a b c) : Ternary i op r := by
  refine ⟨he, fun s hlt => ?_, fun s a b c rest h hd => ?_⟩
  · rw [hx, perform_finish _ _ (standard_underflow 3 1 _ hlt)]
  · rw [hx, perform_goOn _ _ (aluTernary_run f a b c rest h hd), hf]

/-! ## Sum, product and difference -/

theorem aluAdd_eq_ofNat (a b : Word) : aluAdd a b = BitVec.ofNat 256 (a.toNat + b.toNat) := by
  simp [aluAdd, BitVec.ofNat_add]

theorem aluMul_eq_ofNat (a b : Word) : aluMul a b = BitVec.ofNat 256 (a.toNat * b.toNat) := by
  simp [aluMul, BitVec.ofNat_mul]

theorem aluSub_eq_ofInt (a b : Word) : aluSub a b = BitVec.ofInt 256 (a.toNat - b.toNat : Int) := by
  rw [Int.sub_eq_add_neg, BitVec.ofInt_add, BitVec.ofInt_neg]
  simp [aluSub, BitVec.sub_eq_add_neg]

/-! ## Division and remainder -/

/-- R125's middle case is no exception: there the last case wraps to the same Word. -/
theorem aluSdiv_eq_ofInt_tdiv (a b : Word) :
    aluSdiv a b = if b = 0 then 0 else BitVec.ofInt 256 (a.toInt.tdiv b.toInt) := by
  have wrap : BitVec.ofInt 256 (Word.minNeg.toInt.tdiv Word.maxValue.toInt) = Word.minNeg := by decide
  unfold aluSdiv
  split_ifs with h0 h
  · rfl
  · obtain ⟨rfl, rfl⟩ := h
    exact wrap.symm
  · rfl

/-- R127's magnitude and sign are those of the truncated remainder. -/
theorem aluSmod_eq_ofInt_tmod (a b : Word) :
    aluSmod a b = if b = 0 then 0 else BitVec.ofInt 256 (a.toInt.tmod b.toInt) := by
  unfold aluSmod
  simp only [← Int.natAbs_tmod]
  split_ifs with h0 hneg
  · rfl
  · have hnonpos : 0 ≤ -a.toInt.tmod b.toInt := Int.neg_tmod .. ▸ Int.tmod_nonneg _ (by omega)
    rw [Int.ofNat_natAbs_of_nonpos (by omega), Int.neg_neg]
  · rw [← BitVec.ofInt_natCast, Int.natAbs_of_nonneg (Int.tmod_nonneg _ (by omega))]

/-- The truncated remainder of two signed values is the signed value of a Word. -/
theorem toInt_ofInt_tmod (a b : Word) : (BitVec.ofInt 256 (a.toInt.tmod b.toInt)).toInt = a.toInt.tmod b.toInt := by
  rw [← BitVec.toInt_srem, BitVec.ofInt_toInt]

theorem aluDiv_zero_right (a : Word) : aluDiv a 0 = 0 := if_pos rfl
theorem aluSdiv_zero_right (a : Word) : aluSdiv a 0 = 0 := if_pos rfl
theorem aluMod_zero_right (a : Word) : aluMod a 0 = 0 := if_pos rfl
theorem aluSmod_zero_right (a : Word) : aluSmod a 0 = 0 := if_pos rfl

theorem aluDiv_zero_left (b : Word) : aluDiv 0 b = 0 := by simp [aluDiv]
theorem aluSdiv_zero_left (b : Word) : aluSdiv 0 b = 0 := by simp [aluSdiv_eq_ofInt_tdiv]
theorem aluMod_zero_left (b : Word) : aluMod 0 b = 0 := by simp [aluMod]
theorem aluSmod_zero_left (b : Word) : aluSmod 0 b = 0 := by simp [aluSmod_eq_ofInt_tmod]

/-! ## Power -/

/-- Each round uses the lowest bit of the exponent, `base ^ e = (base * base) ^ (e / 2) * base ^ (e % 2)`. -/
theorem aluPower_eq_mul_pow (k : Nat) (base : Word) (e : Nat) (acc : Word) (he : e < 2 ^ k) :
    aluPower k base e acc = acc * base ^ e := by
  induction k generalizing base e acc with
  | zero =>
    obtain rfl : e = 0 := by omega
    rw [aluPower, pow_zero, mul_one]
  | succ k ih =>
    rw [aluPower, ih _ _ _ (by omega), ← pow_two, ← pow_mul]
    obtain heven | hodd := Nat.mod_two_eq_zero_or_one e
    · rw [if_neg (by omega), show 2 * (e / 2) = e by omega]
    · rw [if_pos hodd, mul_assoc, ← pow_succ', show 2 * (e / 2) + 1 = e by omega]

theorem aluExp_eq_ofNat (a b : Word) : aluExp a b = BitVec.ofNat 256 (a.toNat ^ b.toNat) := by
  rw [aluExp, aluPower_eq_mul_pow 256 _ _ _ b.isLt, one_mul]
  apply BitVec.eq_of_toNat_eq
  rw [BitVec.toNat_pow, BitVec.toNat_ofNat]

end Sys2Proof.Machine
end

section
/-! SUPPORT. The ALU as a unit (spec 40_arithmetic.md R131): the opcodes it is defined for, and that an instruction with such
an opcode is the standard sequencing around what the unit gives (`exists_runsOnUnit`). -/

namespace Sys2Proof.Machine

theorem alu_isSome_iff (m : SarMode) (op : Byte) (a b c : Word) : (alu m op a b c).isSome = true ↔
    (0x01 ≤ op.toNat ∧ op.toNat ≤ 0x0a) ∨ (0x10 ≤ op.toNat ∧ op.toNat ≤ 0x1d) := by
  unfold alu
  split
  case h_25 =>
    simp only [imp_false, Option.isSome_none, Bool.false_eq_true, false_iff] at *
    omega
  all_goals simp [*]

/-- The unit's row of opcode 0x0a. -/
theorem alu_exp (m : SarMode) (a b c : Word) : alu m 0x0a a b c = some (aluExp a b) := rfl

/-- The standard sequencing of an instruction that replaces its k operands by what the unit gives for the opcode, and may
report an event. -/
def unitReaction (op : Byte) (k : Nat) (event : Block → Option DiagEvent) (inp : Inputs) (b : Block) : Reaction :=
  standard k 1 (fun b =>
    { goOn (b.replaceTop k [(alu inp.params.sarMode op (b.peek 0) (b.peek 1) (b.peek 2)).getD 0]) with
      event := event b }) b

/-- The instruction performs the unit's row of the opcode; the event is BYTE's alone. -/
structure RunsOnUnit (i : Instr) (op : Byte) (event : Block → Option DiagEvent) : Prop where
  exec_eq : ∀ s, exec i s = perform (unitReaction op (arity i).1 event) s
  consumes : 1 ≤ (arity i).1
  event_eq_none : i ≠ .byte → ∀ b, event b = none

theorem exists_runsOnUnit {i : Instr} {op : Byte} {m : SarMode} {a b c : Word} (he : encode i = [op])
    (h : (alu m op a b c).isSome = true) : ∃ event, RunsOnUnit i op event := by
  cases i with
  | add | mul | sub | div | sdiv | mod | smod | addmod | mulmod | lt | gt | slt | sgt | eq | iszero | and | or | xor
  | not | shl | shr | sar =>
    cases he
    exact ⟨fun _ => none, fun _ => rfl, by decide, fun _ _ => rfl⟩
  | exp =>
    cases he
    -- A bare `rfl` would compute the 256 rounds of the power, so the unit's row is rewritten first.
    refine ⟨fun _ => none, fun _ => ?_, by decide, fun _ _ => rfl⟩
    simp only [perform, unitReaction, alu_exp, Option.getD_some]
    rfl
  | byte =>
    cases he
    exact ⟨byteWarning, fun _ => rfl, by decide, fun hne => absurd rfl hne⟩
  | _ =>
    cases he
    cases h

/-- What a step stores where the run goes on and the block may report an event. -/
theorem State.after_goOn_event (s : State) (b : Block) (e : Option DiagEvent) :
    s.after { goOn b with event := e } = { s with toBlock := b, diag := s.diag ++ e.toList } := by
  cases e with
  | none => simp [State.after, goOn]
  | some => rfl

theorem RunsOnUnit.exec_next {i : Instr} {op : Byte} {event : Block → Option DiagEvent} (h : RunsOnUnit i op event)
    (s : State) (r : Word) (hk : (arity i).1 ≤ s.stack.length) (hd : s.stack.length ≤ 1024)
    (hr : alu s.params.sarMode op (s.peek 0) (s.peek 1) (s.peek 2) = some r) :
    exec i s = .next { s with
      stack := r :: s.stack.drop (arity i).1, diag := s.diag ++ (event s.toBlock).toList } := by
  have hroom : s.stack.length - (arity i).1 + 1 ≤ 1024 := by have := h.consumes; omega
  have hr' : alu s.inputs.params.sarMode op (s.peek 0) (s.peek 1) (s.peek 2) = some r := hr
  rw [h.exec_eq, perform, unitReaction, standard_run _ _ _ hk hroom, State.after_goOn_event, hr', Option.getD_some]
  rfl

end Sys2Proof.Machine
end

section

open Sys2Proof Sys2Proof.Machine Sys2Proof.Claims

namespace Sys2Proof.Proofs

/-- Settles O3: the quotient of MIN_NEG by -1 wraps, so the second clause is the first at these operands. -/
theorem sdivTruncatesTowardZero : Obligations.SdivTruncatesTowardZero := by
  have hsdiv : Binary .sdiv 0x05 fun a b => if b = 0 then 0 else BitVec.ofInt 256 (a.toInt.tdiv b.toInt) :=
    binary_of_exec ⟨rfl, fun _ => rfl⟩ (fun _ => rfl) aluSdiv_eq_ofInt_tdiv
  have ⟨_, _, hrun⟩ := hsdiv
  exact ⟨hsdiv, fun s rest h hd => hrun s _ _ rest h hd⟩

/-- Settles O4: the result is the Word of the truncated remainder, whose magnitude and identity are the library's. -/
theorem smodHasSignOfDividend : Obligations.SmodHasSignOfDividend := by
  have hsmod : Binary .smod 0x07 fun a b => if b = 0 then 0 else BitVec.ofInt 256 (a.toInt.tmod b.toInt) :=
    binary_of_exec ⟨rfl, fun _ => rfl⟩ (fun _ => rfl) aluSmod_eq_ofInt_tmod
  have ⟨_, _, hrun⟩ := hsmod
  refine ⟨hsmod, fun s a b rest h hd hb => ⟨BitVec.ofInt 256 (a.toInt.tmod b.toInt), ?_, ?_, ?_⟩⟩
  · simp only [hrun s a b rest h hd, if_neg hb]
  · rw [toInt_ofInt_tmod, Int.natAbs_tmod]
  · rw [toInt_ofInt_tmod, Int.tdiv_mul_add_tmod]

/-- Settles O6, by the induction over the bits of the exponent in `aluPower_eq_mul_pow`. -/
theorem expIsPowerModulo : Obligations.ExpIsPowerModulo :=
  binary_of_exec ⟨rfl, fun _ => rfl⟩ (fun _ => rfl) aluExp_eq_ofNat

/-- Settles O13: a byte that decodes alone is the encoding of its instruction, which then runs on the unit. -/
theorem aluUnitGivesTheResult : Obligations.AluUnitGivesTheResult := by
  refine ⟨alu_isSome_iff, fun op i s r hdec hk hd hr => ?_⟩
  obtain ⟨he, -⟩ := encodeOfDecode [op] [] i hdec
  rw [List.append_nil] at he
  obtain ⟨event, hunit⟩ := exists_runsOnUnit he.symm (Option.isSome_of_eq_some hr)
  exact ⟨_, hunit.exec_next s r hk hd hr, fun hne => by rw [hunit.event_eq_none hne, Option.toList_none]⟩

/-- Settles O1: each is the ALU's function, read on the integers. -/
theorem addMulSubWrapModulo : Obligations.AddMulSubWrapModulo :=
  ⟨binary_of_exec ⟨rfl, fun _ => rfl⟩ (fun _ => rfl) aluAdd_eq_ofNat,
    binary_of_exec ⟨rfl, fun _ => rfl⟩ (fun _ => rfl) aluMul_eq_ofNat,
    binary_of_exec ⟨rfl, fun _ => rfl⟩ (fun _ => rfl) aluSub_eq_ofInt⟩

/-- Settles O2: the ALU's DIV and MOD are defined by these quotients and remainders. -/
theorem divModAreUnsigned : Obligations.DivModAreUnsigned :=
  ⟨binary_of_exec ⟨rfl, fun _ => rfl⟩ (fun _ => rfl) fun _ _ => rfl,
    binary_of_exec ⟨rfl, fun _ => rfl⟩ (fun _ => rfl) fun _ _ => rfl⟩

/-- Settles O5: the ALU's ADDMOD and MULMOD reduce the sum and the product of the natural numbers. -/
theorem addmodMulmodAreExact : Obligations.AddmodMulmodAreExact :=
  ⟨ternary_of_exec ⟨rfl, fun _ => rfl⟩ (fun _ => rfl) fun _ _ _ => rfl,
    ternary_of_exec ⟨rfl, fun _ => rfl⟩ (fun _ => rfl) fun _ _ _ => rfl⟩

/-- Settles O8: the rows of fixed operands are computed; the rows of 0 are those of the ALU's functions. -/
theorem divisionSignTable : Obligations.DivisionSignTable := by
  intro m c
  refine ⟨⟨rfl, rfl, rfl, rfl⟩, ⟨rfl, rfl, rfl, rfl⟩, ⟨rfl, rfl, rfl, rfl⟩, ⟨rfl, rfl, rfl, rfl⟩, ?zeroDivisor,
    ?zeroDividend, ⟨rfl, rfl, rfl, rfl⟩, ⟨rfl, rfl, rfl, rfl⟩⟩
  case zeroDivisor =>
    exact fun x => ⟨congrArg some (aluSdiv_zero_right x), congrArg some (aluSmod_zero_right x),
      congrArg some (aluDiv_zero_right x), congrArg some (aluMod_zero_right x)⟩
  case zeroDividend =>
    exact fun y _ => ⟨congrArg some (aluSdiv_zero_left y), congrArg some (aluSmod_zero_left y),
      congrArg some (aluDiv_zero_left y), congrArg some (aluMod_zero_left y)⟩

end Sys2Proof.Proofs
end

section
/-! SUPPORT. The comparisons and the bitwise operations of the ALU (spec 41_compare_bitwise.md R151 to R161): the comparisons
as truth Words of relations on the integers their operands stand for, the bitwise operations bit by bit, and the instructions
of one operand or of a bitwise result in the words of the statements (`unary_of_exec`, `bitwise_of_exec`). -/

namespace Sys2Proof.Machine

open Sys2Proof.Claims

/-! ## Instructions of an ALU form -/

theorem unary_of_exec {i : Instr} {op : Byte} {f r : Word → Word} (he : Encoded i op)
    (hx : ∀ s, exec i s = perform (fun _ => aluUnary f) s) (hf : ∀ a, f a = r a) : Unary i op r := by
  refine ⟨he, fun s hlt => ?_, fun s a rest h hd => ?_⟩
  · rw [hx, perform_finish _ _ (standard_underflow 1 1 _ hlt)]
  · rw [hx, perform_goOn _ _ (aluUnary_run f a rest h hd), hf]

theorem bitwise_of_exec {i : Instr} {op : Byte} {f : Word → Word → Word} {g : Bool → Bool → Bool} (he : Encoded i op)
    (hx : ∀ s, exec i s = perform (fun _ => aluBinary f) s)
    (hf : ∀ a b k, (f a b).getLsbD k = g (a.getLsbD k) (b.getLsbD k)) : Bitwise i op g := by
  obtain ⟨-, hunder, hrun⟩ := binary_of_exec he hx fun a b => Eq.refl (f a b)
  exact ⟨he, hunder, fun s a b rest h hd => ⟨f a b, hrun s a b rest h hd, fun k _ => hf a b k⟩⟩

/-! ## Truth Words -/

/-- The model's `bool(c)` of a decided proposition is the statements' (R12). -/
theorem boolWord_decide (c : Prop) [Decidable c] : boolWord (decide c) = truth c := by
  by_cases h : c <;> simp [boolWord, truth, h]

theorem aluLt_eq_truth (a b : Word) : aluLt a b = truth (a.toNat < b.toNat) := boolWord_decide _

theorem aluGt_eq_truth (a b : Word) : aluGt a b = truth (a.toNat > b.toNat) := boolWord_decide _

theorem aluEq_eq_truth (a b : Word) : aluEq a b = truth (a.toNat = b.toNat) := by
  simp only [aluEq, ← BitVec.toNat_inj, boolWord_decide]

/-- R156: ISZERO is EQ with 0. -/
theorem aluIszero_eq_aluEq (a : Word) : aluIszero a = aluEq a 0 := rfl

theorem aluIszero_eq_truth (a : Word) : aluIszero a = truth (a.toNat = 0) := aluEq_eq_truth a 0

/-! ## Signed comparison -/

/-- `flip_sign` gives the magnitude of a negative value, for MIN_NEG too, whose magnitude 2^255 is read unsigned. -/
theorem toInt_of_isNegative {v : Word} (h : isNegative v = true) : v.toInt = -((flipSign v).toNat : Int) := by
  rw [isNegative_eq_msb] at h
  rw [flipSign_eq_neg, BitVec.toInt_eq_neg_toNat_neg_of_msb_true h]

theorem toInt_of_not_isNegative {v : Word} (h : isNegative v = false) : v.toInt = (v.toNat : Int) := by
  rw [isNegative_eq_msb] at h
  exact BitVec.toInt_eq_toNat_of_msb h

/-- R153: the source's algorithm, by the signs of its operands. Differing signs decide; two values that are not negative
compare as they are, and two negative ones by their magnitudes the other way round. -/
theorem aluSlt_eq_truth (a b : Word) : aluSlt a b = truth (a.toInt < b.toInt) := by
  rw [← boolWord_decide, aluSlt]
  congr 1
  cases ha : isNegative a <;> cases hb : isNegative b
  case false.false => simp [toInt_of_not_isNegative ha, toInt_of_not_isNegative hb]
  case false.true =>
    have hb_neg := (isNegative_iff_toInt_neg b).mp hb
    have hge : ¬ a.toInt < b.toInt := by rw [toInt_of_not_isNegative ha]; omega
    simp [hge]
  case true.false =>
    have ha_neg := (isNegative_iff_toInt_neg a).mp ha
    have hlt : a.toInt < b.toInt := by rw [toInt_of_not_isNegative hb]; omega
    simp [hlt]
  case true.true => simp [toInt_of_isNegative ha, toInt_of_isNegative hb, -flipSign_eq_neg]

/-- R154: SGT is SLT with its operands exchanged. -/
theorem aluSgt_eq_aluSlt_swap (a b : Word) : aluSgt a b = aluSlt b a := rfl

theorem aluSgt_eq_truth (a b : Word) : aluSgt a b = truth (a.toInt > b.toInt) := aluSlt_eq_truth b a

/-! ## Bitwise operations -/

theorem getLsbD_aluAnd (a b : Word) (k : Nat) : (aluAnd a b).getLsbD k = (a.getLsbD k && b.getLsbD k) :=
  BitVec.getLsbD_and

theorem getLsbD_aluOr (a b : Word) (k : Nat) : (aluOr a b).getLsbD k = (a.getLsbD k || b.getLsbD k) :=
  BitVec.getLsbD_or

theorem getLsbD_aluXor (a b : Word) (k : Nat) : (aluXor a b).getLsbD k = (a.getLsbD k != b.getLsbD k) :=
  BitVec.getLsbD_xor

theorem getLsbD_aluNot (a : Word) (k : Nat) (hk : k < 256) : (aluNot a).getLsbD k = !a.getLsbD k := by
  rw [aluNot, BitVec.getLsbD_not, decide_eq_true hk, Bool.true_and]

/-! ## The laws of R161 on the ALU's functions -/

theorem aluLt_eq_aluGt_swap (a b : Word) : aluLt a b = aluGt b a := rfl

theorem aluEq_self (a : Word) : aluEq a a = 1 := by simp [aluEq, boolWord]

theorem aluEq_comm (a b : Word) : aluEq a b = aluEq b a := by simp only [aluEq, eq_comm]

theorem aluNot_aluNot (a : Word) : aluNot (aluNot a) = a := BitVec.not_not

theorem aluAnd_aluNot (a : Word) : aluAnd a (aluNot a) = 0 := BitVec.and_not_self a

/-- MAX is the Word of 256 ones. -/
theorem aluOr_aluNot (a : Word) : aluOr a (aluNot a) = Word.maxValue := BitVec.or_not_self a

theorem aluSlt_maxValue_zero : aluSlt Word.maxValue 0 = 1 := by decide

theorem aluSlt_zero_maxValue : aluSlt 0 Word.maxValue = 0 := by decide

end Sys2Proof.Machine
end

section

open Sys2Proof Sys2Proof.Machine Sys2Proof.Claims

namespace Sys2Proof.Proofs

/-- Settles O10: the source's algorithm compares the signed values, by the cases of `aluSlt_eq_truth`. -/
theorem signedComparesFollowSignedValues : Obligations.SignedComparesFollowSignedValues :=
  ⟨binary_of_exec ⟨rfl, fun _ => rfl⟩ (fun _ => rfl) aluSlt_eq_truth,
    binary_of_exec ⟨rfl, fun _ => rfl⟩ (fun _ => rfl) aluSgt_eq_truth⟩

/-- Settles O9: each is the ALU's comparison, read on the natural numbers. -/
theorem unsignedComparesPushTruth : Obligations.UnsignedComparesPushTruth :=
  ⟨binary_of_exec ⟨rfl, fun _ => rfl⟩ (fun _ => rfl) aluLt_eq_truth,
    binary_of_exec ⟨rfl, fun _ => rfl⟩ (fun _ => rfl) aluGt_eq_truth,
    binary_of_exec ⟨rfl, fun _ => rfl⟩ (fun _ => rfl) aluEq_eq_truth,
    unary_of_exec ⟨rfl, fun _ => rfl⟩ (fun _ => rfl) aluIszero_eq_truth⟩

/-- Settles O11: each instruction performs the ALU's function, whose bits the `getLsbD` lemmas give. -/
theorem bitwiseLogicBitByBit : Obligations.BitwiseLogicBitByBit := by
  obtain ⟨hencoded, hunder, hrun⟩ : Unary .not 0x19 aluNot :=
    unary_of_exec ⟨rfl, fun _ => rfl⟩ (fun _ => rfl) fun _ => rfl
  exact ⟨bitwise_of_exec ⟨rfl, fun _ => rfl⟩ (fun _ => rfl) getLsbD_aluAnd,
    bitwise_of_exec ⟨rfl, fun _ => rfl⟩ (fun _ => rfl) getLsbD_aluOr,
    bitwise_of_exec ⟨rfl, fun _ => rfl⟩ (fun _ => rfl) getLsbD_aluXor,
    hencoded, hunder, fun s a rest h hd => ⟨aluNot a, hrun s a rest h hd, getLsbD_aluNot a⟩⟩

/-- Settles O12: the unit's row of each opcode is the ALU's function, and the law is that function's. -/
theorem sourceComparisonLaws : Obligations.SourceComparisonLaws := fun _ a b _ =>
  ⟨congrArg some (aluLt_eq_aluGt_swap a b), congrArg some (aluEq_self a), congrArg some (aluEq_comm a b),
    congrArg some (aluIszero_eq_aluEq a), congrArg some (aluNot_aluNot a), congrArg some (aluAnd_aluNot a),
    congrArg some (aluOr_aluNot a), congrArg some aluSlt_maxValue_zero, congrArg some aluSlt_zero_maxValue,
    congrArg some (aluSgt_eq_aluSlt_swap a b)⟩

end Sys2Proof.Proofs
end

section
/-! SUPPORT. The shifts and BYTE of the ALU (spec 42_bitops.md R171 to R175) as functions of the integers their operands
stand for, the whole unsigned shift amount included, and where the two modes of SAR part. -/

namespace Sys2Proof.Machine

/-! ## Instructions of two operands -/

/-- Where the inputs choose the ALU's function, as SAR_MODE does. -/
theorem exec_next_of_aluBinary {i : Instr} {f : Inputs → Word → Word → Word}
    (hx : ∀ s, exec i s = perform (fun inp => aluBinary (f inp)) s) {s : State} {a b : Word} {rest : List Word}
    (h : s.stack = a :: b :: rest) (hd : s.stack.length ≤ 1024) :
    exec i s = .next { s with stack := f s.inputs a b :: rest } := by
  rw [hx, perform_goOn _ _ (aluBinary_run _ a b rest h hd)]

/-! ## Logical shifts -/

/-- R171: the case of 256 or more is no exception, since the library's shift has moved every bit out by then. -/
theorem aluShl_eq_ofNat (sh x : Word) : aluShl sh x = BitVec.ofNat 256 (x.toNat * 2 ^ sh.toNat) := by
  have hshift : aluShl sh x = x <<< sh.toNat := ite_eq_right_iff.mpr fun h => (BitVec.shiftLeft_eq_zero h).symm
  apply BitVec.eq_of_toNat_eq
  rw [hshift, BitVec.toNat_shiftLeft, BitVec.toNat_ofNat, Nat.shiftLeft_eq]

/-- R172: as for SHL. -/
theorem aluShr_eq_ofNat (sh x : Word) : aluShr sh x = BitVec.ofNat 256 (x.toNat / 2 ^ sh.toNat) := by
  have hshift : aluShr sh x = x >>> sh.toNat := ite_eq_right_iff.mpr fun h => (BitVec.ushiftRight_eq_zero h).symm
  rw [hshift, ← Nat.shiftRight_eq_div_pow, ← BitVec.toNat_ushiftRight, BitVec.ofNat_toNat, BitVec.setWidth_eq]

/-! ## Arithmetic shift -/

/-- The library's arithmetic shift is floor division of the signed value. -/
theorem ofInt_toInt_div_two_pow (x : Word) (k : Nat) : BitVec.ofInt 256 (x.toInt / 2 ^ k) = x.sshiftRight k := by
  rw [← BitVec.ofInt_toInt (x := x.sshiftRight k), BitVec.toInt_sshiftRight, Int.shiftRight_eq_div_pow]
  norm_cast

/-- R173, TRUE_ASR: from 256 on the floor is 0 or -1, by the sign. -/
theorem aluSarTrue_eq_ofInt (sh x : Word) : aluSarTrue sh x = BitVec.ofInt 256 (x.toInt / 2 ^ sh.toNat) := by
  unfold aluSarTrue
  split_ifs with hsh hneg
  · rw [isNegative_eq_msb] at hneg
    rw [ofInt_toInt_div_two_pow, BitVec.sshiftRight_eq_of_msb_true hneg, BitVec.ushiftRight_eq_zero hsh]
    rfl
  · rw [isNegative_eq_msb, Bool.not_eq_true] at hneg
    rw [ofInt_toInt_div_two_pow, BitVec.sshiftRight_eq_of_msb_false hneg, BitVec.ushiftRight_eq_zero hsh]
    rfl
  · rfl

/-- R15: the magnitude of a negative value, MIN_NEG too. -/
theorem toNat_flipSign_of_neg {x : Word} (h : x.toInt < 0) : (flipSign x).toNat = x.toInt.natAbs := by
  rw [toInt_of_isNegative ((isNegative_iff_toInt_neg x).mpr h), Int.natAbs_neg, Int.natAbs_natCast]

/-- R173, REFERENCE_FLIP: a negative value is shifted as its magnitude. -/
theorem aluSarFlip_of_neg (sh : Word) {x : Word} (h : x.toInt < 0) :
    aluSarFlip sh x = BitVec.ofInt 256 (-((x.toInt.natAbs / 2 ^ sh.toNat : Nat) : Int)) := by
  rw [aluSarFlip, if_pos ((isNegative_iff_toInt_neg x).mpr h), aluShr_eq_ofNat, toNat_flipSign_of_neg h, flipSign_eq_neg,
    BitVec.ofInt_neg, BitVec.ofInt_natCast]

theorem aluSarFlip_of_nonneg (sh : Word) {x : Word} (h : ¬ x.toInt < 0) :
    aluSarFlip sh x = BitVec.ofNat 256 (x.toNat / 2 ^ sh.toNat) := by
  rw [aluSarFlip, if_neg (mt (isNegative_iff_toInt_neg x).mp h), aluShr_eq_ofNat]

/-! ## Where the modes of SAR part -/

/-- The ceiling is the floor, and one more where the division leaves a remainder. -/
theorem add_sub_one_div (m : Nat) {d : Nat} (hd : 0 < d) : (m + d - 1) / d = m / d + if d ∣ m then 0 else 1 := by
  cases m with
  | zero => simpa using Nat.div_eq_of_lt (Nat.sub_one_lt_of_lt hd)
  | succ m =>
    rw [Nat.add_right_comm, Nat.add_sub_cancel, Nat.add_div_right _ hd, Nat.succ_div]
    split <;> rfl

/-- The floor of a negative value is its magnitude's ceiling, negated. -/
theorem neg_ediv_eq_neg_ceil (m : Nat) {d : Nat} (hd : 0 < d) : -(m : Int) / d = -(((m + d - 1) / d : Nat) : Int) := by
  simp only [Int.neg_ediv, add_sub_one_div m hd, Int.natCast_dvd_natCast, Int.sign_natCast_of_ne_zero hd.ne']
  split <;> push_cast <;> ring

/-- R175: TRUE_ASR of a negative value, by its magnitude. -/
theorem aluSarTrue_of_neg (sh : Word) {x : Word} (h : x.toInt < 0) : aluSarTrue sh x =
    BitVec.ofInt 256 (-(((x.toInt.natAbs + 2 ^ sh.toNat - 1) / 2 ^ sh.toNat : Nat) : Int)) := by
  rw [aluSarTrue_eq_ofInt, ← neg_ediv_eq_neg_ceil _ (Nat.two_pow_pos _), Int.ofNat_natAbs_of_nonpos h.le, Int.neg_neg]
  norm_cast

/-- R175: the modes agree on a value that is not negative. -/
theorem aluSarTrue_eq_aluSarFlip_of_nonneg (sh : Word) {x : Word} (h : ¬ x.toInt < 0) :
    aluSarTrue sh x = aluSarFlip sh x := by
  have hx : x.toInt = x.toNat := toInt_of_not_isNegative (Bool.eq_false_iff.mpr (mt (isNegative_iff_toInt_neg x).mp h))
  rw [aluSarTrue_eq_ofInt, aluSarFlip_of_nonneg sh h, hx]
  exact_mod_cast BitVec.ofInt_natCast ..

/-- R175: on a negative value TRUE_ASR is one less wherever a bit that is not 0 has been shifted out. -/
theorem aluSarTrue_eq_aluSarFlip_sub (sh : Word) {x : Word} (h : x.toInt < 0) :
    aluSarTrue sh x = aluSarFlip sh x - if 2 ^ sh.toNat ∣ x.toInt.natAbs then 0 else 1 := by
  rw [aluSarTrue_of_neg sh h, aluSarFlip_of_neg sh h, add_sub_one_div _ (Nat.two_pow_pos _), Nat.cast_add, Int.neg_add,
    BitVec.ofInt_add, BitVec.sub_eq_add_neg]
  congr 1
  split <;> rfl

theorem aluSarTrue_ne_aluSarFlip_iff (sh x : Word) : aluSarTrue sh x ≠ aluSarFlip sh x ↔
    x.toInt < 0 ∧ x.toInt.natAbs % 2 ^ sh.toNat ≠ 0 := by
  by_cases h : x.toInt < 0
  · simp [aluSarTrue_eq_aluSarFlip_sub sh h, h, Nat.dvd_iff_mod_eq_zero]
  · simp [aluSarTrue_eq_aluSarFlip_of_nonneg sh h, h]

/-- R175: from 256 on nothing of the magnitude is left. -/
theorem aluSarFlip_of_neg_of_le {sh x : Word} (h : x.toInt < 0) (hsh : 256 ≤ sh.toNat) : aluSarFlip sh x = 0 := by
  rw [aluSarFlip, if_pos ((isNegative_iff_toInt_neg x).mpr h), aluShr, if_pos hsh]
  rfl

/-- R175: from 256 on nothing but the sign is left. -/
theorem aluSarTrue_of_neg_of_le {sh x : Word} (h : x.toInt < 0) (hsh : 256 ≤ sh.toNat) :
    aluSarTrue sh x = Word.maxValue := by
  rw [aluSarTrue, if_pos hsh, if_pos ((isNegative_iff_toInt_neg x).mpr h)]

/-! ## BYTE -/

theorem aluByte_of_le (i x : Word) (h : 32 ≤ i.toNat) : aluByte i x = 0 := by
  simp [aluByte, byteOutOfRange, h]

/-- R174: byte i from the most significant has 31 - i bytes below it. -/
theorem aluByte_of_lt (i x : Word) (h : i.toNat < 32) :
    aluByte i x = BitVec.ofNat 256 (x.toNat / 256 ^ (31 - i.toNat) % 256) := by
  have hplace : 2 ^ (248 - 8 * i.toNat) = 256 ^ (31 - i.toNat) := by
    rw [show 248 - 8 * i.toNat = 8 * (31 - i.toNat) by omega]
    exact pow_mul 2 8 _
  rw [aluByte, byteOutOfRange, if_neg (by simp [h]), ← BitVec.ofNat_toNat, BitVec.extractLsb'_toNat,
    Nat.shiftRight_eq_div_pow, hplace]

/-- BYTE is the one instruction on the unit that may report an event. -/
theorem byte_runsOnUnit : RunsOnUnit .byte 0x1a byteWarning where
  exec_eq _ := rfl
  consumes := by decide
  event_eq_none hne := absurd rfl hne

theorem exec_byte_next (s : State) (i x : Word) (rest : List Word) (h : s.stack = i :: x :: rest)
    (hd : s.stack.length ≤ 1024) : exec .byte s = .next { s with
      stack := aluByte i x :: rest
      diag := s.diag ++
        (if 32 ≤ i.toNat then [⟨.warning, .byteOffsetOutOfRange, s.pc - 1⟩] else []) } := by
  have hunit : alu s.params.sarMode 0x1a (s.peek 0) (s.peek 1) (s.peek 2) = some (aluByte i x) := by
    rw [peek_cons _ _ h, peek_cons_cons _ _ _ h]
    rfl
  rw [byte_runsOnUnit.exec_next s _ (by simp [h, arity]) hd hunit, byteWarning_eq, peek_cons _ _ h, h]
  split <;> rfl

end Sys2Proof.Machine
end

section

open Sys2Proof Sys2Proof.Machine Sys2Proof.Claims

namespace Sys2Proof.Proofs

/-- Settles O14: the ALU's functions are the library's shifts by the whole amount; from 256 on they give 0 at once. -/
theorem logicalShiftsByWholeAmount : Obligations.LogicalShiftsByWholeAmount := by
  refine ⟨binary_of_exec ⟨rfl, fun _ => rfl⟩ (fun _ => rfl) aluShl_eq_ofNat,
    binary_of_exec ⟨rfl, fun _ => rfl⟩ (fun _ => rfl) aluShr_eq_ofNat, fun s sh x rest h hd hsh => ⟨?_, ?_⟩⟩
  · rw [exec_next_of_aluBinary (f := fun _ => aluShl) (fun _ => rfl) h hd, aluShl, if_pos hsh]
  · rw [exec_next_of_aluBinary (f := fun _ => aluShr) (fun _ => rfl) h hd, aluShr, if_pos hsh]

/-- Settles O15: one case for each mode, and for REFERENCE_FLIP one for each sign. -/
theorem sarFollowsItsMode : Obligations.SarFollowsItsMode := by
  refine ⟨⟨rfl, fun _ => rfl⟩, everyInstructionUnderflows .sar, fun s sh x rest h hd => ?_⟩
  have hexec : exec .sar s = .next { s with stack := aluSar s.params.sarMode sh x :: rest } :=
    exec_next_of_aluBinary (f := fun inp => aluSar inp.params.sarMode) (fun _ => rfl) h hd
  rw [hexec]
  cases s.params.sarMode with
  | trueAsr => simp only [aluSar, aluSarTrue_eq_ofInt]
  | referenceFlip =>
    by_cases hx : x.toInt < 0
    · simp only [aluSar, aluSarFlip_of_neg sh hx, if_pos hx]
    · simp only [aluSar, aluSarFlip_of_nonneg sh hx, if_neg hx]

/-- Settles O16: floor and ceiling of the magnitude, which differ where the division leaves a remainder. -/
theorem sarModesDifferExactly : Obligations.SarModesDifferExactly := by
  refine fun sh x c => ⟨fun hx => ?negative, ?differ⟩
  case negative =>
    have hle := BitVec.le_toInt x
    exact ⟨toNat_flipSign_of_neg hx, Int.natAbs_pos.mpr hx.ne, by omega, congrArg some (aluSarFlip_of_neg sh hx),
      congrArg some (aluSarTrue_of_neg sh hx), fun hsh =>
        ⟨congrArg some (aluSarFlip_of_neg_of_le hx hsh), congrArg some (aluSarTrue_of_neg_of_le hx hsh)⟩⟩
  case differ => exact (Option.some_injective _).ne_iff.trans (aluSarTrue_ne_aluSarFlip_iff sh x)

/-- Settles O17: BYTE's result and its warning both turn on whether the offset is 32 or more. -/
theorem byteCountsFromMostSignificant : Obligations.ByteCountsFromMostSignificant := by
  refine ⟨⟨rfl, fun _ => rfl⟩, everyInstructionUnderflows .byte, fun s i x rest h hd => ?_⟩
  rw [exec_byte_next s i x rest h hd]
  split
  · next hi => rw [aluByte_of_le i x hi]
  · next hi => rw [aluByte_of_lt i x (Nat.lt_of_not_le hi), List.append_nil]

end Sys2Proof.Proofs
end

section
/-! SUPPORT. Where an access passes MEM_LIMIT (spec 20_memory.md R62), and the bytes of a stored Word in the words of the
statements (R64). -/

namespace Sys2Proof.Machine

open Sys2Proof.Claims

theorem not_memAdmits_of_passesLimit {s : State} {addr n : Nat} (h : PassesLimit s addr n) :
    ¬ memAdmits s.params.memLimit addr n = true := by
  obtain ⟨l, hl, hlt⟩ := h
  rw [memAdmits_iff]
  exact fun ha => absurd hlt (Nat.not_lt.mpr (ha l hl))

/-- The limit is checked after the stack (R327), so a memory instruction that has its operands and its room, and whose
access passes the limit, ends the run whatever its body does. -/
theorem perform_access_passesLimit {s : State} (k p n : Nat) (body : Block → Reaction) (off : Word) (rest : List Word)
    (h : s.stack = off :: rest) (hk : k ≤ s.stack.length) (ho : s.stack.length - k + p ≤ 1024)
    (hlim : PassesLimit s off.toNat n) :
    perform (fun inp => standard k p (access inp n body)) s = .next (endRun (.fatal .memoryLimit) s) := by
  refine perform_finish _ _ ?_
  have haddr : s.addr = off.toNat := congrArg BitVec.toNat (peek_cons _ _ h)
  rw [standard_run _ _ _ hk ho, access, haddr]
  exact if_neg (not_memAdmits_of_passesLimit hlim)

/-- A store of a whole Word puts its byte j at the address `addr + j`. -/
theorem read_memWrite_eq_byteAt (m : List Host.Cell) (addr j : Nat) (v : Word) (hj : j < 32) :
    Memory.read (memWrite m addr 32 v) (addr + j) = byteAt v j := by
  rw [memWrite_inside _ _ _ _ _ hj, byteAt, show 8 * (32 - 1 - j) = 248 - 8 * j by omega]

end Sys2Proof.Machine
end

section

open Sys2Proof Sys2Proof.Machine Sys2Proof.Claims

namespace Sys2Proof.Proofs

/-- Settles O18: MLOAD is the load of 32 bytes, with one case for each side of MEM_LIMIT. -/
theorem mloadReadsBigEndian : Obligations.MloadReadsBigEndian := by
  refine ⟨⟨rfl, fun _ => rfl⟩, everyInstructionUnderflows .mload, fun s off rest h hd => ⟨fun ha => ?_, fun hlim => ?_⟩⟩
  · exact ⟨_, perform_loadWord 32 off rest h hd ha, byteAt_memRead s.mem off.toNat⟩
  · exact perform_access_passesLimit 1 1 32 _ off rest h (by simp [h]) (by omega) hlim

/-- Settles O19: MSTORE is the store of 32 bytes, with one case for each side of MEM_LIMIT. -/
theorem mstoreWritesBigEndian : Obligations.MstoreWritesBigEndian := by
  refine ⟨⟨rfl, fun _ => rfl⟩, everyInstructionUnderflows .mstore,
    fun s off v rest h hd => ⟨fun ha => ?_, fun hlim => ?_⟩⟩
  · exact ⟨_, perform_storeWord 32 off v rest h hd ha, fun j => read_memWrite_eq_byteAt s.mem off.toNat j v,
      fun x => memWrite_outside s.mem off.toNat 32 x v⟩
  · exact perform_access_passesLimit 2 0 32 _ off _ h (by simp [h]) (by omega) hlim

/-- Settles O20: MSTORE8 is the store of one byte, the low one, with one case for each side of MEM_LIMIT. -/
theorem mstoreEightWritesLowByte : Obligations.MstoreEightWritesLowByte := by
  refine ⟨⟨rfl, fun _ => rfl⟩, everyInstructionUnderflows .mstore8,
    fun s off v rest h hd => ⟨fun ha => ?_, fun hlim => ?_⟩⟩
  · exact ⟨_, perform_storeWord 1 off v rest h hd ha, memWrite_inside s.mem off.toNat 1 0 v Nat.one_pos,
      fun x hx => memWrite_outside s.mem off.toNat 1 x v (by omega)⟩
  · exact perform_access_passesLimit 2 0 1 _ off _ h (by simp [h]) (by omega) hlim

end Sys2Proof.Proofs
end

section
/-! SUPPORT. Where an instruction leaves pc while the run goes on (spec 44_stack_control.md R205, 10_state.md R37), said
once for every operand form; and what the two jumps do once they have their operands. -/

namespace Sys2Proof.Machine

/-! ## The program counter -/

/-- Where the answer `r` of the instruction `i` lets the run go on, it has moved pc from the opcode byte past the
immediate bytes, or `i` is a jump and has moved it to a member of JD. -/
def AdvancesPc (i : Instr) (b : Block) (r : Reaction) : Prop :=
  r.block.phase = .running →
    r.block.pc = b.pc + (instrLength i - 1) ∨ (i = .jump ∨ i = .jumpi) ∧ r.block.pc ∈ b.jd

section Forms
variable {i : Instr} {b : Block}

/-- The end of a run says nothing of pc: it leaves no Running phase. -/
theorem finish_advancesPc (e : RunEnd) : AdvancesPc i b (finish e b) :=
  fun hrun => absurd hrun (finish_phase_ne_running e b)

/-- An instruction of one byte that lets the run go on leaves pc where the fetch has put it. -/
theorem advancesPc_of_pc_eq {r : Reaction} (hl : instrLength i = 1) (hpc : r.block.pc = b.pc) : AdvancesPc i b r :=
  fun _ => .inl (by rw [hl, hpc]; rfl)

theorem standard_advancesPc (k p : Nat) (body : Block → Reaction) (h : AdvancesPc i b (body b)) :
    AdvancesPc i b (standard k p body b) := by
  obtain ⟨-, e⟩ | ⟨-, -, e⟩ | ⟨-, -, e⟩ := standard_cases k p body b <;> rw [e]
  · exact finish_advancesPc _
  · exact finish_advancesPc _
  · exact h

theorem access_advancesPc (inp : Inputs) (n : Nat) (body : Block → Reaction) (h : AdvancesPc i b (body b)) :
    AdvancesPc i b (access inp n body b) := by
  obtain ⟨-, e⟩ | ⟨-, e⟩ := access_cases inp n body b <;> rw [e]
  · exact h
  · exact finish_advancesPc _

theorem jumpTaken_advancesPc (hi : i = .jump ∨ i = .jumpi) (k : Nat) : AdvancesPc i b (jumpTaken k b) := by
  obtain ⟨hjd, e⟩ | ⟨-, e⟩ := jumpTaken_cases k b <;> rw [e]
  · exact fun _ => .inr ⟨hi, hjd⟩
  · exact finish_advancesPc _

theorem pushImmediate_advancesPc {n : Nat} (hl : instrLength i = n + 1) (imm : List Byte) :
    AdvancesPc i b (pushImmediate n imm b) := by
  obtain ⟨-, e⟩ | ⟨-, -, e⟩ | ⟨-, -, e⟩ := pushImmediate_cases n imm b <;> rw [e]
  · exact finish_advancesPc _
  · exact finish_advancesPc _
  · exact fun _ => .inl (by rw [hl]; rfl)

theorem swapEntry_advancesPc (hl : instrLength i = 1) (n : Nat) : AdvancesPc i b (swapEntry n b) := by
  obtain ⟨-, e⟩ | ⟨-, e⟩ := swapEntry_cases n b <;> rw [e]
  · exact finish_advancesPc _
  · exact advancesPc_of_pc_eq hl rfl

theorem jump_advancesPc : AdvancesPc .jump b (if b.depth < 1 then raise .stackUnderflow b else jumpTaken 1 b) := by
  split
  · exact finish_advancesPc _
  · exact jumpTaken_advancesPc (.inl rfl) 1

theorem jumpi_advancesPc : AdvancesPc .jumpi b (if b.depth < 2 then raise .stackUnderflow b
    else if b.peek 1 ≠ 0 then jumpTaken 2 b else goOn (b.replaceTop 2 [])) := by
  split
  · exact finish_advancesPc _
  · split
    · exact jumpTaken_advancesPc (.inr rfl) 2
    · exact advancesPc_of_pc_eq rfl rfl

end Forms

theorem HasForm.advancesPc {i : Instr} {f : Inputs → Block → Reaction} (h : HasForm i f) (inp : Inputs) (b : Block) :
    AdvancesPc i b (f inp b) := by
  cases h with
  | stop | invalid => exact finish_advancesPc _
  | unary _ _ hl | binary _ _ hl | ternary _ _ hl | dup _ _ hl =>
    exact standard_advancesPc _ _ _ (advancesPc_of_pc_eq hl rfl)
  | byte | pop | gas | pc => exact standard_advancesPc _ _ _ (advancesPc_of_pc_eq rfl rfl)
  | jumpdest => exact advancesPc_of_pc_eq rfl rfl
  | mload | mstore | mstore8 =>
    exact standard_advancesPc _ _ _ (access_advancesPc inp _ _ (advancesPc_of_pc_eq rfl rfl))
  | jump => exact jump_advancesPc
  | jumpi => exact jumpi_advancesPc
  | push n imm _ hl => exact pushImmediate_advancesPc hl imm
  | swap n _ hl => exact swapEntry_advancesPc hl n

/-! ## The meanings -/

theorem exec_pop (s : State) : exec .pop s = execPop s := rfl
theorem exec_jump (s : State) : exec .jump s = execJump s := rfl
theorem exec_jumpi (s : State) : exec .jumpi s = execJumpi s := rfl
theorem exec_pc (s : State) : exec .pc s = execPc s := rfl

/-! ## Jumps that have their operands -/

section Jumps
variable {s : State}

theorem exec_jump_of_operand (h : 1 ≤ s.stack.length) : exec .jump s = perform (fun _ => jumpTaken 1) s := by
  have hd : ¬ s.depth < 1 := Nat.not_lt.mpr h
  rw [exec_jump, execJump, perform, if_neg hd, perform]

theorem exec_jumpi_of_ne_zero (h : 2 ≤ s.stack.length) (hc : s.peek 1 ≠ 0) :
    exec .jumpi s = perform (fun _ => jumpTaken 2) s := by
  have hd : ¬ s.depth < 2 := Nat.not_lt.mpr h
  rw [exec_jumpi, execJumpi, perform, if_neg hd, if_pos hc, perform]

/-- Not taken: the target is not looked at (R202). -/
theorem exec_jumpi_of_eq_zero (h : 2 ≤ s.stack.length) (hc : s.peek 1 = 0) :
    exec .jumpi s = .next { s with stack := s.stack.drop 2 } := by
  have hd : ¬ s.depth < 2 := Nat.not_lt.mpr h
  rw [exec_jumpi, execJumpi]
  refine perform_goOn _ (s.replaceTop 2 []) ?_
  rw [if_neg hd, if_neg (not_not_intro hc)]

theorem perform_jumpTaken_of_mem (k : Nat) (t : Word) (rest : List Word) (h : s.stack = t :: rest)
    (hjd : t.toNat ∈ s.jd) :
    perform (fun _ => jumpTaken k) s = .next { s with stack := s.stack.drop k, pc := t.toNat } := by
  rw [← peek_cons t rest h] at hjd ⊢
  obtain ⟨-, e⟩ | ⟨hn, -⟩ := jumpTaken_cases k s.toBlock
  · exact perform_goOn _ _ e
  · exact absurd hjd hn

/-- A target outside JD ends the run with its operands still on the result stack (D14). -/
theorem perform_jumpTaken_of_not_mem (k : Nat) (t : Word) (rest : List Word) (h : s.stack = t :: rest)
    (hjd : t.toNat ∉ s.jd) : perform (fun _ => jumpTaken k) s = .next (endRun (.exit 1) s) := by
  rw [← peek_cons t rest h] at hjd
  obtain ⟨hm, -⟩ | ⟨-, e⟩ := jumpTaken_cases k s.toBlock
  · exact absurd hm hjd
  · exact perform_finish _ _ e

theorem endRun_exit_res_stack (code : Nat) : (endRun (.exit code) s).res.stack = s.stack := rfl

end Jumps

end Sys2Proof.Machine
end

section

open Sys2Proof Sys2Proof.Machine Sys2Proof.Claims

namespace Sys2Proof.Proofs

/-- Settles O44: read off the form that the instruction performs. -/
theorem onlyJumpsRedirectPc : Obligations.OnlyJumpsRedirectPc := by
  intro i s t _ ht hrun
  obtain ⟨f, hf, hform⟩ := exec_hasForm i
  cases (hf s).symm.trans ht
  exact hform.advancesPc s.inputs s.toBlock hrun

/-- Settles O22: POP is the standard sequencing with a body that drops one word. -/
theorem popDiscardsTop : Obligations.PopDiscardsTop := by
  refine ⟨⟨rfl, fun _ => rfl⟩, everyInstructionUnderflows .pop, fun s a rest h hd => ?_⟩
  rw [exec_pop, execPop]
  refine perform_goOn _ _ ?_
  rw [standard_run _ _ _ (by simp [h]) (by omega), Block.replaceTop, h]
  rfl

/-- Settles O23: JUMP with its operand is the jump to S[0], with one case for each side of JD. -/
theorem jumpNeedsJumpdest : Obligations.JumpNeedsJumpdest := by
  refine ⟨⟨rfl, fun _ => rfl⟩, everyInstructionUnderflows .jump, fun s t rest h => ?_⟩
  rw [exec_jump_of_operand (by simp [h]), endRun_exit_res_stack]
  refine ⟨fun hjd => ?_, fun hjd => ⟨perform_jumpTaken_of_not_mem 1 t rest h hjd, h⟩⟩
  rw [perform_jumpTaken_of_mem 1 t rest h hjd, h]
  rfl

/-- Settles O24: JUMPI with its operands falls through, or is the jump to S[0] with one case for each side of JD. -/
theorem jumpiTestsCondition : Obligations.JumpiTestsCondition := by
  refine ⟨⟨rfl, fun _ => rfl⟩, everyInstructionUnderflows .jumpi, fun s t cond rest h => ?_⟩
  have hk : 2 ≤ s.stack.length := by simp [h]
  have hcond : s.peek 1 = cond := peek_cons_cons t cond rest h
  rw [endRun_exit_res_stack]
  refine ⟨fun hc => ?_, fun hc hjd => ?_, fun hc hjd => ⟨?_, h⟩⟩
  · rw [exec_jumpi_of_eq_zero hk (hcond.trans hc), h]
    rfl
  · rw [exec_jumpi_of_ne_zero hk (hcond.trans_ne hc), perform_jumpTaken_of_mem 2 t _ h hjd, h]
    rfl
  · rw [exec_jumpi_of_ne_zero hk (hcond.trans_ne hc), perform_jumpTaken_of_not_mem 2 t _ h hjd]

/-- Settles O25: the fetch has put pc one past the opcode byte, so `ipc` is its offset. -/
theorem pcPushesOwnOffset : Obligations.PcPushesOwnOffset := by
  refine ⟨⟨rfl, fun _ => rfl⟩, fun s ipc hpc => ⟨fun hroom => ?_, fun hfull => ?_⟩⟩
  · have hipc : s.ipc = ipc := Nat.sub_eq_of_eq_add hpc
    rw [exec_pc, execPc]
    refine perform_goOn _ _ ?_
    rw [pushWord_run _ hroom, hipc]
  · exact everyInstructionOverflows .pc s rfl (Nat.zero_le _) hfull.le (by rw [hfull]; decide)

/-- Settles O26: what JUMPDEST answers is the block it is given. -/
theorem jumpdestDoesNothing : Obligations.JumpdestDoesNothing :=
  ⟨⟨rfl, fun _ => rfl⟩, fun s => congrArg Host.Outcome.next (State.after_goOn s.toBlock s)⟩

end Sys2Proof.Proofs
end

section
/-! SUPPORT. The end of a run by an exit, written out field by field (spec 60_exceptions.md R325, R326), and the meanings of
the system instructions (45_system.md R221 to R223) in terms of it. -/

namespace Sys2Proof.Machine

variable (s : State)

/-- A successful exit emits nothing (R330). -/
theorem endRun_exit_zero : endRun (.exit 0) s =
    { s with
      res := ⟨true, .success, true, 0, none, 0, s.stack.length, s.stack⟩
      phase := .exited 0, pc := 0, stack := [] } := rfl

/-- A nonzero exit is a failure and warns at the offset of its opcode byte (R330). -/
theorem endRun_exit_of_ne_zero {code : Nat} (h : code ≠ 0) : endRun (.exit code) s =
    { s with
      res := ⟨true, .failure, false, code, none, 0, s.stack.length, s.stack⟩
      diag := s.diag ++ [⟨.warning, .nonzeroExit, s.pc - 1⟩]
      phase := .exited code, pc := 0, stack := [] } := by
  have hres : endResult (.exit code) s.toBlock = ⟨true, .failure, false, code, none, 0, s.stack.length, s.stack⟩ := by
    simp [endResult, h, Block.depth]
  have hevent : endEvent (.exit code) s.toBlock = some ⟨.warning, .nonzeroExit, s.pc - 1⟩ := if_neg h
  rw [endRun, finish, hres, hevent]
  rfl

theorem exec_stop : exec .stop s = .next (endRun (.exit 0) s) := rfl
theorem exec_invalid : exec .invalid s = .next (endRun (.exit 1) s) := rfl
theorem exec_gas : exec .gas s = execGas s := rfl

/-- GAS is the one body that answers with a read of gas_in, so `State.after` counts one draw more (R46, log 3). -/
theorem execGas_of_room (h : s.stack.length < 1024) :
    execGas s = .next { s with stack := Config.gasIn s.gasDraws :: s.stack, gasDraws := s.gasDraws + 1 } := by
  have hroom : s.stack.length - 0 + 1 ≤ 1024 := h
  rw [execGas, perform, standard_run _ _ _ (Nat.zero_le _) hroom]
  rfl

end Sys2Proof.Machine
end

section

open Sys2Proof Sys2Proof.Machine

namespace Sys2Proof.Proofs

/-- Settles O27: both are the end of the run by an exit, one with code 0 and one with a code that is not 0. -/
theorem stopAndInvalidEndTheRun : Obligations.StopAndInvalidEndTheRun := by
  refine ⟨⟨rfl, fun _ => rfl⟩, ⟨rfl, fun _ => rfl⟩, fun s => ⟨?_, ?_⟩⟩
  · rw [exec_stop, endRun_exit_zero]
  · rw [exec_invalid, endRun_exit_of_ne_zero s Nat.one_ne_zero]

/-- Settles O28: with room the draw is pushed and counted; a full stack is the overflow of every instruction. -/
theorem gasPushesFreeDraw : Obligations.GasPushesFreeDraw := by
  refine ⟨⟨rfl, fun _ => rfl⟩, fun s => ⟨fun hroom => ?_, fun hfull => ?_⟩⟩
  · rw [exec_gas, execGas_of_room s hroom]
  · exact everyInstructionOverflows .gas s rfl (Nat.zero_le _) hfull.le (by rw [hfull]; decide)

end Sys2Proof.Proofs
end

section
/-! SUPPORT. The families of PUSHn, DUPn and SWAPn (spec 46_push_dup_swap.md R230, R263, R280): what the members of each
have in common, read once off the tables of the statements, and what their operand forms do to the stack. -/

namespace Sys2Proof.Machine

open Sys2Proof.Claims

/-! ## PUSHn -/

/-- What PUSHn has in common for n = 1 to 32. Its encoding carries whatever bytes it holds (log 11). -/
structure PushMember (n : Nat) (op : Byte) (push : List Byte → Instr) : Prop where
  le : n ≤ 32
  opcode : op.toNat = 0x60 + (n - 1)
  encode_eq : ∀ imm, encode (push imm) = op :: imm
  decode_cons : ∀ bytes, decode (op :: bytes) = .ok (push (bytes.take n), bytes.drop n)
  exec_eq : ∀ imm s, exec (push imm) s = perform (fun _ => pushImmediate n imm) s

theorem pushMember_of_mem {n : Nat} {op : Byte} {push : List Byte → Instr} (h : (n, op, push) ∈ pushMembers) :
    PushMember n op push := by
  have hall : ∀ m ∈ pushMembers, PushMember m.1 m.2.1 m.2.2 := by
    simp only [pushMembers, pushMembersA, pushMembersB, pushMembersC, pushMembersD, List.cons_append, List.nil_append,
      List.forall_mem_cons, List.not_mem_nil, false_imp_iff, implies_true, and_true]
    and_intros <;> exact ⟨by decide, by decide, fun _ => rfl, fun _ => rfl, fun _ _ => rfl⟩
  exact hall _ h

section Push
variable {s : State} {n : Nat} {imm : List Byte}

/-- The shortfall is checked first, so the depth does not matter (R327). -/
theorem perform_pushImmediate_of_short (h : imm.length < n) :
    perform (fun _ => pushImmediate n imm) s = .next (endRun (.fatal .malformedPush) s) := by
  refine perform_finish _ _ ?_
  obtain ⟨-, e⟩ | ⟨hn, -⟩ | ⟨hn, -⟩ := pushImmediate_cases n imm s.toBlock
  · exact e
  · exact absurd h (Nat.not_lt.mpr hn)
  · exact absurd h (Nat.not_lt.mpr hn)

theorem perform_pushImmediate_of_full (h : imm.length = n) (hfull : s.stack.length = 1024) :
    perform (fun _ => pushImmediate n imm) s = .next (endRun (.fatal .stackOverflow) s) := by
  refine perform_finish _ _ ?_
  obtain ⟨hn, -⟩ | ⟨-, -, e⟩ | ⟨-, hroom, -⟩ := pushImmediate_cases n imm s.toBlock
  · exact absurd h hn.ne
  · exact e
  · exact absurd hfull hroom.ne

theorem perform_pushImmediate_of_room (h : imm.length = n) (hroom : s.stack.length < 1024) :
    perform (fun _ => pushImmediate n imm) s =
      .next { s with stack := wordOfBytes imm :: s.stack, pc := s.pc + n } := by
  obtain ⟨hn, -⟩ | ⟨-, hfull, -⟩ | ⟨-, -, e⟩ := pushImmediate_cases n imm s.toBlock
  · exact absurd h hn.ne
  · exact absurd hroom (Nat.not_lt.mpr hfull)
  · exact perform_goOn _ _ e

end Push

/-- The n bytes after the opcode byte at pc, or what the code has left of them (log 11). -/
def State.immediate (s : State) (n : Nat) : List Byte := (s.code.drop (s.pc + 1)).take n

theorem State.length_immediate (s : State) (n : Nat) :
    (s.immediate n).length = min n (s.code.length - (s.pc + 1)) := by
  rw [State.immediate, List.length_take, List.length_drop]

theorem State.getElem?_immediate (s : State) {n j : Nat} (hj : j < n) :
    (s.immediate n)[j]? = s.code[s.pc + 1 + j]? := by
  rw [State.immediate, List.getElem?_take_of_lt hj, List.getElem?_drop]

/-- The step that fetches PUSHn runs it on the immediate at pc. -/
theorem step_of_pushMember {n : Nat} {op : Byte} {push : List Byte → Instr} (h : PushMember n op push) {s : State}
    (hrun : s.phase = .running) (hop : s.code[s.pc]? = some op) :
    step s = exec (push (s.immediate n)) { s with pc := s.pc + 1 } := by
  obtain ⟨hlt, rfl⟩ := List.getElem?_eq_some_iff.mp hop
  obtain ⟨-, -, hstep⟩ := Proofs.stepRunsDecodedInstruction s hrun
  refine hstep _ ((s.code.drop (s.pc + 1)).drop n) ?_
  rw [List.drop_eq_getElem_cons hlt, h.decode_cons, State.immediate]

/-! ## DUPn and SWAPn -/

/-- What the members of a family of one-byte instructions have in common: the n-th of them has the n-th opcode byte from
`base` on, takes k words for p, and performs `form`. -/
structure StackMember (base n : Nat) (op : Byte) (i : Instr) (k p : Nat) (form : Block → Reaction) : Prop where
  pos : 1 ≤ n
  opcode : op.toNat = base + (n - 1)
  encoded : Encoded i op
  arity_eq : arity i = (k, p)
  exec_eq : ∀ s, exec i s = perform (fun _ => form) s

theorem StackMember.underflows {base n : Nat} {op : Byte} {i : Instr} {k p : Nat} {form : Block → Reaction}
    (h : StackMember base n op i k p form) : Underflows i k :=
  fun s hlt => Proofs.everyInstructionUnderflows i s (by rwa [h.arity_eq])

theorem dupMember_of_mem {n : Nat} {op : Byte} {i : Instr} (h : (n, op, i) ∈ dupMembers) :
    StackMember 0x80 n op i n (n + 1) (dupEntry n) := by
  have hall : ∀ m ∈ dupMembers, StackMember 0x80 m.1 m.2.1 m.2.2 m.1 (m.1 + 1) (dupEntry m.1) := by
    simp only [dupMembers, dupMembersA, dupMembersB, List.cons_append, List.nil_append, List.forall_mem_cons,
      List.not_mem_nil, false_imp_iff, implies_true, and_true]
    and_intros <;> exact ⟨by decide, by decide, ⟨rfl, fun _ => rfl⟩, rfl, fun _ => rfl⟩
  exact hall _ h

theorem swapMember_of_mem {n : Nat} {op : Byte} {i : Instr} (h : (n, op, i) ∈ swapMembers) :
    StackMember 0x90 n op i (n + 1) (n + 1) (swapEntry n) := by
  have hall : ∀ m ∈ swapMembers, StackMember 0x90 m.1 m.2.1 m.2.2 (m.1 + 1) (m.1 + 1) (swapEntry m.1) := by
    simp only [swapMembers, swapMembersA, swapMembersB, List.cons_append, List.nil_append, List.forall_mem_cons,
      List.not_mem_nil, false_imp_iff, implies_true, and_true]
    and_intros <;> exact ⟨by decide, by decide, ⟨rfl, fun _ => rfl⟩, rfl, fun _ => rfl⟩
  exact hall _ h

theorem dupEntry_full {b : Block} {n : Nat} (hn : n ≤ b.stack.length) (hfull : b.stack.length = 1024) :
    dupEntry n b = finish (.fatal .stackOverflow) b :=
  standard_overflow _ _ _ hn (by omega)

/-! ## The exchange of two entries -/

section Exchange
variable {st : List Word} {n : Nat} {x y : Word}

theorem perform_swapEntry {s : State} (hx : s.stack[0]? = some x) (hy : s.stack[n]? = some y) :
    perform (fun _ => swapEntry n) s = .next { s with stack := (s.stack.set 0 y).set n x } := by
  have htop : s.peek 0 = x := by simp [Block.peek, List.getD, hx]
  have hdeep : s.peek n = y := by simp [Block.peek, List.getD, hy]
  obtain ⟨hk, -⟩ | ⟨-, e⟩ := swapEntry_cases n s.toBlock
  · exact absurd (List.getElem?_eq_some_iff.mp hy).1 (by omega)
  · rw [htop, hdeep] at e
    exact perform_goOn _ _ e

/-- The entries of a stack whose top has changed places with the entry n places below it. -/
theorem getElem?_exchanged (hn : n ≠ 0) (hx : st[0]? = some x) (hy : st[n]? = some y) (j : Nat) :
    ((st.set 0 y).set n x)[j]? = if j = 0 then some y else if j = n then some x else st[j]? := by
  have h0 : 0 < st.length := (List.getElem?_eq_some_iff.mp hx).1
  have hlt : n < st.length := (List.getElem?_eq_some_iff.mp hy).1
  by_cases hj : j = n
  · rw [hj, List.getElem?_set_self (by simpa using hlt), if_neg hn, if_pos rfl]
  · rw [List.getElem?_set_ne (Ne.symm hj), if_neg hj]
    split
    · next h => rw [h, List.getElem?_set_self h0]
    · next h => rw [List.getElem?_set_ne (Ne.symm h)]

theorem exchanged_exchanged (hn : n ≠ 0) (hx : st[0]? = some x) (hy : st[n]? = some y) :
    (((st.set 0 y).set n x).set 0 x).set n y = st := by
  have hget := getElem?_exchanged hn hx hy
  refine List.ext_getElem? fun j => ?_
  rw [getElem?_exchanged hn (by rw [hget, if_pos rfl]) (by rw [hget, if_neg hn, if_pos rfl]), hget]
  split
  · next h => rw [h, hx]
  · split
    · next h => rw [h, hy]
    · rfl

end Exchange

end Sys2Proof.Machine
end

section

open Sys2Proof Sys2Proof.Machine Sys2Proof.Claims

namespace Sys2Proof.Proofs

/-- Settles O29: the three clauses are the three things a PUSHn can do, and the Word is the one its bytes make. -/
theorem pushMeaningOnImmediate : Obligations.PushMeaningOnImmediate := by
  intro n op push hmem imm s
  have hm := pushMember_of_mem hmem
  rw [hm.exec_eq]
  refine ⟨hm.encode_eq imm, perform_pushImmediate_of_short, perform_pushImmediate_of_full, fun hl hroom => ?_⟩
  refine ⟨_, perform_pushImmediate_of_room hl hroom, ?_, fun j hj => ?_⟩
  · rw [← hl]
    exact wordOfBytes_lt imm (hl.trans_le hm.le)
  · subst hl
    rw [wordOfBytes_byte imm hm.le j hj, List.getElem?_eq_getElem hj]

/-- Settles O30: the fetch hands PUSHn the bytes after its opcode byte, on which its meaning is that of O29. -/
theorem pushTakesBytesFromCode : Obligations.PushTakesBytesFromCode := by
  intro n op push hmem s hrun hop
  have hm := pushMember_of_mem hmem
  have hpc : s.pc < s.code.length := (List.getElem?_eq_some_iff.mp hop).1
  have hlen := s.length_immediate n
  have hcut (h : s.code.length < s.pc + 1 + n) : (s.immediate n).length < n := by omega
  have hwhole (h : s.pc + 1 + n ≤ s.code.length) : (s.immediate n).length = n := by omega
  obtain ⟨-, hshort, hfull, hroom⟩ :=
    pushMeaningOnImmediate n op push hmem (s.immediate n) { s with pc := s.pc + 1 }
  rw [step_of_pushMember hm hrun hop]
  refine ⟨hm.opcode, fun h => hshort (hcut h), fun h => hfull (hwhole h), fun h hr => ?_⟩
  obtain ⟨v, hexec, hlt, hbytes⟩ := hroom (hwhole h) hr
  refine ⟨v, hexec, hlt, fun j hj => ?_⟩
  rw [← hbytes j hj, s.getElem?_immediate hj]

/-- Settles O31: an entry n places down is there, so DUPn has its words, and only the room is left to decide. -/
theorem dupCopiesEntry : Obligations.DupCopiesEntry := by
  intro n op i hmem
  have hm := dupMember_of_mem hmem
  refine ⟨hm.opcode, hm.encoded, hm.underflows, fun s v hv => ?_⟩
  have hdepth : n ≤ s.stack.length := by
    have := (List.getElem?_eq_some_iff.mp hv).1
    omega
  rw [hm.exec_eq]
  exact ⟨fun hroom => perform_goOn _ _ (dupEntry_run n v hv hdepth hroom),
    fun hfull => perform_finish _ _ (dupEntry_full hdepth hfull)⟩

/-- Settles O32: the new stack entry by entry; its own exchange gives the old one back. -/
theorem swapExchangesEntries : Obligations.SwapExchangesEntries := by
  intro n op i hmem
  have hm := swapMember_of_mem hmem
  have hn : n ≠ 0 := Nat.one_le_iff_ne_zero.mp hm.pos
  refine ⟨hm.opcode, hm.encoded, hm.underflows, fun s x y hx hy => ?_⟩
  have hget := getElem?_exchanged hn hx hy
  have htop : ((s.stack.set 0 y).set n x)[0]? = some y := by rw [hget, if_pos rfl]
  have hdeep : ((s.stack.set 0 y).set n x)[n]? = some x := by rw [hget, if_neg hn, if_pos rfl]
  refine ⟨_, (hm.exec_eq s).trans (perform_swapEntry hx hy), by simp, htop, hdeep, fun j h0 hj => ?_, ?_⟩
  · rw [hget, if_neg h0, if_neg hj]
  · rw [hm.exec_eq, perform_swapEntry htop hdeep, exchanged_exchanged hn hx hy]

end Sys2Proof.Proofs
end

section
/-! SUPPORT. The life of a run outside its instructions (spec 60_exceptions.md R326, 70_reset_and_hazards.md R361 to R363):
which phases count as done, what a fatal end writes, and when a step is refused. -/

namespace Sys2Proof.Machine

variable {s : State}

theorem endRun_fatal (kind : FatalKind) : endRun (.fatal kind) s =
    { s with
      res := ⟨true, .fatal, false, 0, some kind, s.pc - 1, s.stack.length, s.stack⟩
      diag := s.diag ++ [⟨.error, .fatal, s.pc - 1⟩]
      phase := .fatal kind, pc := 0, stack := [] } := rfl

theorem endRun_phase_ne_running (e : RunEnd) : (endRun e s).phase ≠ .running :=
  finish_phase_ne_running e s.toBlock

theorem runStep_ne_refused (r : Refusal) : runStep s ≠ .refused r := by
  obtain ⟨_, _, _, hr, -⟩ := runStep_cases s
  rw [hr]
  nofun

theorem awaitStart_eq_refused_iff (r : Refusal) : awaitStart s = .refused r ↔
    r = .codeTooLong ∧ ∃ code later, s.starts = code :: later ∧ s.params.codeMax < code.length := by
  obtain ⟨hs, e⟩ | ⟨code, later, hs, hl, e⟩ | ⟨code, later, hs, hl, e⟩ := awaitStart_cases s <;> rw [e]
  · simp [hs]
  · simp [hs, hl]
  · simp [hs, hl, eq_comm]

theorem awaitStart_of_fits {code : List Byte} {later : List (List Byte)} (hs : s.starts = code :: later)
    (hl : code.length ≤ s.params.codeMax) : awaitStart s = .next (beginRun code { s with starts := later }) := by
  rw [awaitStart, hs]
  exact if_pos hl

theorem awaitStart_of_no_start (hs : s.starts = []) : awaitStart s = .next s := by
  rw [awaitStart, hs]

theorem Block.busy_iff (b : Block) : b.busy = true ↔ b.phase = .running := decide_eq_true_iff

theorem Block.done_iff (b : Block) :
    b.done = true ↔ (∃ code, b.phase = .exited code) ∨ ∃ kind, b.phase = .fatal kind := by
  cases h : b.phase <;> simp [Block.done, h]

theorem Block.ne_running_of_done {b : Block} (h : b.done = true) : b.phase ≠ .running := by
  obtain ⟨_, e⟩ | ⟨_, e⟩ := b.done_iff.mp h <;> rw [e] <;> nofun

end Sys2Proof.Machine
end

section
/-! SUPPORT. The old RES is no input of a step (spec 10_state.md R48, 60_exceptions.md R330): every operand form asks about
the other fields alone, so it answers a block with another RES by the same end of the run, or by the same going on with that
RES kept (`AnswersAlike`). -/

namespace Sys2Proof.Machine

/-! ## Blocks and reactions with another RES -/

/-- `b` with `x` in RES. -/
def Block.withRes (x : Result) (b : Block) : Block := { b with res := x }

/-- `r` with `x` in the RES of its block. -/
def Reaction.withRes (x : Result) (r : Reaction) : Reaction := { r with block := r.block.withRes x }

/-- How `f` answers to `b` with `x` in RES, measured by its answer to `b`. -/
inductive AnswersAlike (f : Block → Reaction) (b : Block) (x : Result) : Prop where
  /-- By the same end of the run, which latches a RES of its own (R326). -/
  | ends (h : f (b.withRes x) = f b)
  | goesOn (hphase : (f b).block.phase = b.phase) (h : f (b.withRes x) = (f b).withRes x)

section Forms
variable {b : Block} {x : Result}

/-- Only the phase and the two answers count. -/
theorem AnswersAlike.congr {f g : Block → Reaction} {b' : Block} (h : AnswersAlike f b' x) (hphase : b'.phase = b.phase)
    (hb : g b = f b') (hx : g (b.withRes x) = f (b'.withRes x)) : AnswersAlike g b x := by
  cases h with
  | ends e => exact .ends (by rw [hx, hb, e])
  | goesOn hp e => exact .goesOn (by rw [hb, hp, hphase]) (by rw [hx, hb, e])

theorem finish_alike (e : RunEnd) : AnswersAlike (finish e) b x := .ends rfl

/-- A check that does not read RES takes the same branch whatever RES holds. -/
theorem ite_alike (c : Block → Prop) [DecidablePred c] {f g : Block → Reaction} (hc : c (b.withRes x) ↔ c b)
    (hf : AnswersAlike f b x) (hg : AnswersAlike g b x) : AnswersAlike (fun b => if c b then f b else g b) b x := by
  by_cases h : c b
  · exact hf.congr rfl (if_pos h) (if_pos (hc.mpr h))
  · exact hg.congr rfl (if_neg h) (if_neg (mt hc.mp h))

theorem standard_alike (k p : Nat) {body : Block → Reaction} (h : AnswersAlike body b x) :
    AnswersAlike (standard k p body) b x :=
  ite_alike (·.depth < k) Iff.rfl (finish_alike _)
    (ite_alike (stackMax < ·.depth - k + p) Iff.rfl (finish_alike _) h)

theorem access_alike (inp : Inputs) (n : Nat) {body : Block → Reaction} (h : AnswersAlike body b x) :
    AnswersAlike (access inp n body) b x :=
  ite_alike (memAdmits inp.params.memLimit ·.addr n = true) Iff.rfl h (finish_alike _)

theorem jumpTaken_alike (k : Nat) : AnswersAlike (jumpTaken k) b x :=
  ite_alike (fun b => b.validTarget (b.peek 0) = true) Iff.rfl (.goesOn rfl rfl) (finish_alike _)

theorem pushImmediate_alike (n : Nat) (imm : List Byte) : AnswersAlike (pushImmediate n imm) b x :=
  ite_alike (fun _ => imm.length < n) Iff.rfl (finish_alike _) (standard_alike _ _ (.goesOn rfl rfl))

theorem swapEntry_alike (n : Nat) : AnswersAlike (swapEntry n) b x :=
  ite_alike (·.depth < n + 1) Iff.rfl (finish_alike _) (.goesOn rfl rfl)

end Forms

theorem HasForm.alike {i : Instr} {f : Inputs → Block → Reaction} (h : HasForm i f) (inp : Inputs) (b : Block)
    (x : Result) : AnswersAlike (f inp) b x := by
  cases h with
  | stop | invalid => exact finish_alike _
  | unary | binary | ternary | byte | pop | gas | pc | dup => exact standard_alike _ _ (.goesOn rfl rfl)
  | jumpdest => exact .goesOn rfl rfl
  | mload | mstore | mstore8 => exact standard_alike _ _ (access_alike inp _ (.goesOn rfl rfl))
  | jump => exact ite_alike (·.depth < 1) Iff.rfl (finish_alike _) (jumpTaken_alike 1)
  | jumpi =>
    exact ite_alike (·.depth < 2) Iff.rfl (finish_alike _)
      (ite_alike (·.peek 1 ≠ 0) Iff.rfl (jumpTaken_alike 2) (.goesOn rfl rfl))
  | push n imm => exact pushImmediate_alike n imm
  | swap n => exact swapEntry_alike n

/-! ## The step of a Running block -/

/-- A fetch reads pc and the code alone (R93), so it finds the same whatever RES holds. -/
theorem fetch_withRes_cases (code : List Byte) (b : Block) (x : Result) :
    (fetch code b = .endOfCode ∧ fetch code (b.withRes x) = .endOfCode) ∨
    (fetch code b = .unknown (b.setPc (b.pc + 1)) ∧
      fetch code (b.withRes x) = .unknown ((b.setPc (b.pc + 1)).withRes x)) ∨
    ∃ i, fetch code b = .instr i (b.setPc (b.pc + 1)) ∧
      fetch code (b.withRes x) = .instr i ((b.setPc (b.pc + 1)).withRes x) := by
  have hahead : (b.withRes x).ahead code = b.ahead code := rfl
  unfold fetch
  rw [hahead]
  rcases decode (b.ahead code) with (_ | op) | ⟨i, rest⟩
  · exact .inl ⟨rfl, rfl⟩
  · exact .inr (.inl ⟨rfl, rfl⟩)
  · exact .inr (.inr ⟨i, rfl, rfl⟩)

theorem reactionOf_alike {meaning : Instr → Inputs → Block → Reaction} {inp : Inputs}
    (h : ∀ i b x, AnswersAlike (meaning i inp) b x) (b : Block) (x : Result) :
    AnswersAlike (reactionOf meaning inp) b x := by
  have hphase : (b.setPc (b.pc + 1)).phase = b.phase := rfl
  obtain ⟨hb, hx⟩ | ⟨hb, hx⟩ | ⟨i, hb, hx⟩ := fetch_withRes_cases inp.code b x
  · exact (finish_alike (.exit 0)).congr rfl (by rw [reactionOf, hb]; rfl) (by rw [reactionOf, hx]; rfl)
  · exact (finish_alike (.fatal .unknownOpcode)).congr hphase (by rw [reactionOf, hb]; rfl) (by rw [reactionOf, hx]; rfl)
  · exact (h i _ x).congr hphase (by rw [reactionOf, hb]) (by rw [reactionOf, hx])

/-- The step of a Running block is one function of the inputs and the block that answers alike whatever RES holds. -/
theorem runStep_performs_alike : ∃ f : Inputs → Block → Reaction,
    (∀ s, runStep s = perform f s) ∧ ∀ inp b x, AnswersAlike (f inp) b x := by
  choose meaning hmeaning hform using exec_hasForm
  exact ⟨reactionOf meaning, runStep_eq_perform_reactionOf meaning hmeaning,
    fun inp => reactionOf_alike fun i => (hform i).alike inp⟩

end Sys2Proof.Machine
end

section
/-! SUPPORT. `SameResult`, kept by every step and so by every run: two states of the same run (`SameRun`) that have the same
RES too once the run has ended (spec 70_reset_and_hazards.md R364). Steps and runs from them agree (`OutcomesAgree`). -/

namespace Sys2Proof.Machine

/-- Both go on, to states that `R` relates, or both are refused for the same reason. -/
inductive OutcomesAgree (R : State → State → Prop) : StepOutcome → StepOutcome → Prop where
  | next {s t : State} (h : R s t) : OutcomesAgree R (.next s) (.next t)
  | refused (r : Refusal) : OutcomesAgree R (.refused r) (.refused r)

theorem OutcomesAgree.imp {R Q : State → State → Prop} {o o' : StepOutcome} (h : OutcomesAgree R o o')
    (hRQ : ∀ s t, R s t → Q s t) : OutcomesAgree Q o o' := by
  cases h with
  | next h => exact .next (hRQ _ _ h)
  | refused r => exact .refused r

/-! ## States of the same run -/

section SameRun
variable {s t : State}

/-- States of the same run differ in their blocks by RES alone. -/
theorem SameRun.toBlock_eq (h : SameRun s t) : t.toBlock = s.toBlock.withRes t.res := by
  obtain ⟨-, -, -, -, hphase, hpc, hstack, hmem, hmsize, hjd⟩ := h
  rw [Block.withRes, hphase, hpc, hstack, hmem, hmsize, hjd]

theorem SameRun.inputs_eq (h : SameRun s t) : t.inputs = s.inputs := by
  rw [State.inputs, State.inputs, h.params, h.code, h.gasDraws]

theorem SameRun.after_withRes (h : SameRun s t) (r : Reaction) (x : Result) :
    SameRun (s.after r) (t.after (r.withRes x)) where
  params := h.params
  code := h.code
  starts := h.starts
  gasDraws := by rw [State.after_gasDraws, State.after_gasDraws, h.gasDraws]; rfl
  phase := rfl
  pc := rfl
  stack := rfl
  mem := rfl
  msize := rfl
  jd := rfl

/-- States of the same run with the same RES, unless the run that is to write it is still in progress. -/
def SameResult (s t : State) : Prop := SameRun s t ∧ (s.phase ≠ .running → s.res = t.res)

/-- The start of a run leaves nothing of the block but RES (R361), and a run is then in progress. -/
theorem sameResult_beginRun (hparams : s.params = t.params) (hgas : s.gasDraws = t.gasDraws) (code : List Byte)
    (later : List (List Byte)) :
    SameResult (beginRun code { s with starts := later }) (beginRun code { t with starts := later }) :=
  ⟨⟨hparams, rfl, rfl, hgas, rfl, rfl, rfl, rfl, rfl, rfl⟩, fun hrest => absurd rfl hrest⟩

/-! ## Steps -/

/-- A Running block either ends its run, with a RES that no old one shows in, or stays Running. -/
theorem perform_agree {f : Inputs → Block → Reaction} (hf : ∀ inp b x, AnswersAlike (f inp) b x) (h : SameRun s t)
    (hrun : s.phase = .running) : OutcomesAgree SameResult (perform f s) (perform f t) := by
  refine .next ?_
  rw [h.toBlock_eq, h.inputs_eq]
  cases hf s.inputs s.toBlock t.res with
  | ends e =>
    rw [e]
    exact ⟨h.after_withRes _ (f s.inputs s.toBlock).block.res, fun _ => rfl⟩
  | goesOn hphase e =>
    rw [e]
    exact ⟨h.after_withRes _ t.res, fun hrest => absurd (hphase.trans hrun) hrest⟩

theorem step_agree_of_running (h : SameRun s t) (hrun : s.phase = .running) :
    OutcomesAgree SameResult (step s) (step t) := by
  obtain ⟨f, hstep, hf⟩ := runStep_performs_alike
  rw [step_running hrun, step_running (h.phase.symm.trans hrun), hstep, hstep]
  exact perform_agree hf h hrun

/-- Outside a run a step reads the parameters and the starts alone. -/
theorem step_agree_of_not_running {R : State → State → Prop} (hs : s.phase ≠ .running) (ht : t.phase ≠ .running)
    (hparams : s.params = t.params) (hstarts : s.starts = t.starts) (hwait : s.starts = [] → R s t)
    (hbegin : ∀ code later, R (beginRun code { s with starts := later }) (beginRun code { t with starts := later })) :
    OutcomesAgree R (step s) (step t) := by
  rw [step_not_running hs, step_not_running ht]
  obtain ⟨hnone, e⟩ | ⟨code, later, hcons, hl, e⟩ | ⟨code, later, hcons, hl, e⟩ := awaitStart_cases s <;> rw [e]
  · rw [awaitStart_of_no_start (hstarts ▸ hnone)]
    exact .next (hwait hnone)
  · rw [awaitStart_of_fits (hstarts ▸ hcons) (hparams ▸ hl)]
    exact .next (hbegin code later)
  · rw [(awaitStart_eq_refused_iff _).mpr ⟨rfl, code, later, hstarts ▸ hcons, hparams ▸ hl⟩]
    exact .refused _

theorem step_agree (h : SameResult s t) : OutcomesAgree SameResult (step s) (step t) := by
  by_cases hrun : s.phase = .running
  · exact step_agree_of_running h.1 hrun
  · obtain ⟨hsame, hres⟩ := h
    exact step_agree_of_not_running hrun (hsame.phase ▸ hrun) hsame.params hsame.starts (fun _ => ⟨hsame, hres⟩)
      (sameResult_beginRun hsame.params hsame.gasDraws)

/-! ## Runs -/

theorem run_succ_of_next (M : Host.Core) (k : Nat) {s s' : M.State} (h : M.step s = .next s') :
    M.run (k + 1) s = M.run k s' := by
  rw [Host.Core.run, h]

theorem run_succ_of_refused (M : Host.Core) (k : Nat) {s : M.State} {r : M.Refusal} (h : M.step s = .refused r) :
    M.run (k + 1) s = .refused r := by
  rw [Host.Core.run, h]

/-- Where the first steps agree, and so do the k steps from whatever related states they reach, k + 1 steps agree. -/
theorem run_succ_agree {R : State → State → Prop} {k : Nat} (h : OutcomesAgree R (step s) (step t))
    (hk : ∀ s' t', R s' t' → OutcomesAgree R (Sys2Proof.core.run k s') (Sys2Proof.core.run k t')) :
    OutcomesAgree R (Sys2Proof.core.run (k + 1) s) (Sys2Proof.core.run (k + 1) t) := by
  generalize hs : step s = o, ht : step t = o' at h
  cases h with
  | next h =>
    rw [run_succ_of_next Sys2Proof.core k hs, run_succ_of_next Sys2Proof.core k ht]
    exact hk _ _ h
  | refused r =>
    rw [run_succ_of_refused Sys2Proof.core k hs, run_succ_of_refused Sys2Proof.core k ht]
    exact .refused r

end SameRun

theorem run_agree (k : Nat) (s t : State) (h : SameResult s t) :
    OutcomesAgree SameResult (Sys2Proof.core.run k s) (Sys2Proof.core.run k t) := by
  induction k generalizing s t with
  | zero => exact .next h
  | succ k ih => exact run_succ_agree (step_agree h) ih

end Sys2Proof.Machine
end

section

open Sys2Proof Sys2Proof.Machine

namespace Sys2Proof.Proofs

/-- Settles O57: the first step takes the same start and leaves nothing of the earlier runs but RES (R361); every later
step depends neither on RES nor on the trace. -/
theorem runsLeaveNoResidue : Obligations.RunsLeaveNoResidue := by
  intro s t k hs ht hparams hstarts hsome hgas
  have hfirst : OutcomesAgree SameResult (step s) (step t) :=
    step_agree_of_not_running hs ht hparams hstarts (fun hnone => absurd hnone hsome) (sameResult_beginRun hparams hgas)
  have h := run_succ_agree hfirst (run_agree k)
  generalize Sys2Proof.core.run (k + 1) s = o, Sys2Proof.core.run (k + 1) t = o' at h ⊢
  cases h with
  | next h =>
    obtain ⟨hsame, hres⟩ := h
    exact ⟨hsame, fun hdone => hres (Block.ne_running_of_done hdone)⟩
  | refused r => rfl

/-- Settles O56: a step within a run answers alike whatever RES holds; one outside a run reads the parameters and the
starts. -/
theorem stepIgnoresOldResult : Obligations.StepIgnoresOldResult := by
  intro s t h
  have hagree : OutcomesAgree (fun s' t' => SameRun s' t' ∧ (s.phase = .running → s'.phase ≠ .running → s'.res = t'.res))
      (step s) (step t) := by
    by_cases hrun : s.phase = .running
    · exact (step_agree_of_running h hrun).imp fun _ _ ⟨hsame, hres⟩ => ⟨hsame, fun _ => hres⟩
    · exact step_agree_of_not_running hrun (h.phase ▸ hrun) h.params h.starts (fun _ => ⟨h, fun hr => absurd hr hrun⟩)
        fun code later => ⟨(sameResult_beginRun h.params h.gasDraws code later).1, fun hr => absurd hr hrun⟩
  generalize step s = o, step t = o' at hagree ⊢
  cases hagree with
  | next h => exact h
  | refused r => rfl

/-- Settles O45: each answer that an instruction can give is of one of these kinds. -/
theorem everyEndIsPrecise : Obligations.EveryEndIsPrecise := by
  intro i s t hrun ht
  obtain ⟨r, hr, ha⟩ := exec_answers i s
  cases hr.symm.trans ht
  cases ha with
  | exits code hcode =>
    rw [State.after_finish]
    obtain rfl | rfl := Nat.le_one_iff_eq_zero_or_eq_one.mp hcode
    · exact .inr (.inl rfl)
    · exact .inr (.inr (.inl rfl))
  | fails kind =>
    rw [State.after_finish]
    exact .inr (.inr (.inr ⟨kind, rfl⟩))
  | goesOn r hg => exact .inl ⟨hg.phase.trans hrun, hg.res⟩

/-- Settles O46: every instruction performs an answer of its block. -/
theorem everyInstructionAnswersNext : Obligations.EveryInstructionAnswersNext := by
  intro i s
  obtain ⟨r, hr, -⟩ := exec_answers i s
  exact ⟨_, hr⟩

/-- Settles O47: no step within a run is refused, and outside a run only the next start is. -/
theorem onlyTooLongCodeIsRefused : Obligations.OnlyTooLongCodeIsRefused := by
  intro s r
  by_cases hrun : s.phase = .running
  · rw [step_running hrun]
    exact ⟨fun h => absurd h (runStep_ne_refused r), fun ⟨_, hrest, _⟩ => absurd hrun hrest⟩
  · rw [step_not_running hrun, awaitStart_eq_refused_iff]
    exact ⟨fun ⟨hr, hlong⟩ => ⟨hr, hrun, hlong⟩, fun ⟨hr, _, hlong⟩ => ⟨hr, hlong⟩⟩

/-- Settles O48: an exit is a success or a failure by its code. -/
theorem endOfRunLatchesResult : Obligations.EndOfRunLatchesResult := by
  refine fun s code kind => ⟨?_, endRun_fatal kind⟩
  by_cases hcode : code = 0
  · subst hcode
    rw [endRun_exit_zero]
    simp
  · rw [endRun_exit_of_ne_zero s hcode]
    simp [hcode]

/-- Settles O49: the fields of `State.reset`; memory that lists no byte reads 0. -/
theorem powerOnValues : Obligations.PowerOnValues :=
  ⟨rfl, rfl, rfl, rfl, Memory.read_nil, rfl, rfl⟩

/-- Settles O50: the start fits, so the waiting block takes it. -/
theorem startOfRunResets : Obligations.StartOfRunResets := by
  intro s code later hrest hs hl
  rw [step_not_running hrest, awaitStart_of_fits hs hl]
  rfl

/-- Settles O51: outside a run a step only looks for a start. -/
theorem idleBlockWaits : Obligations.IdleBlockWaits := by
  intro s hrest hs
  rw [step_not_running hrest, awaitStart_of_no_start hs]

/-- Settles O52: both are read off the phase. -/
theorem busyAndDoneFollowPhase : Obligations.BusyAndDoneFollowPhase :=
  fun s => ⟨s.busy_iff, s.done_iff⟩

/-- Settles O58: the end of a run leaves no Running phase. -/
theorem endedRunWaitsForStart : Obligations.EndedRunWaitsForStart :=
  fun _ e => step_not_running (endRun_phase_ne_running e)

end Sys2Proof.Proofs
end
